-- ==== Sys2Proof/Config.lean ====
section
/-! DEFINITION. What is fixed for one instance of the block: the constants of 00_scope.md R7, the value types that its
parameters speak of, the parameters of R9, and the free values (opaque constants: nothing can be proved of their values). -/

namespace Sys2Proof

/-- A Frame as a value (10_state.md R23). -/
structure Frame where
  msgType : Byte
  tid : Byte
  payload : List Byte
deriving DecidableEq, Repr, Inhabited

/-- The domain layer's answer to `onDomainFrame(frame)` (30_encoding.md R90). -/
inductive Verdict where
  | handled
  | unhandled
  | rejected (reason : Byte)
deriving DecidableEq, Repr, Inhabited

/-- The registers that RESET leaves unspecified (10_state.md R41, 70_reset_and_hazards.md R290): one value for each. -/
structure ResetDraw where
  crcAcc : U16
  parserCrc : U16
  parserMsgType : Byte
  parserTid : Byte
  parserLength : U16
  parserRxCrc : U16
  replyTimerMs : Nat
deriving DecidableEq, Repr, Inhabited

/-- The open parameters of 00_scope.md R9 that are plain values. `queueCapacity = none` is 'infinite'. -/
structure Params where
  /-- `FIRST_TID` (D9). -/
  firstTid : Byte
  /-- `TID_CONSUMED_ON_GATE_REJECT` (D10). -/
  tidConsumedOnGateReject : Bool
  /-- `REQUEST_REPEATABLE` (D28). -/
  requestRepeatable : Bool
  /-- `REQUEST_TIMEOUT_MS` (D28). -/
  requestTimeoutMs : Nat
  /-- `QUEUE_CAPACITY` (D34). -/
  queueCapacity : Option Nat
deriving DecidableEq, Repr

namespace Config

/-! ## Constants of R7 -/

def crcPoly : U16 := 0x1021
def crcSeed : U16 := 0xFFFF
def crcTableSize : Nat := 256
def preamble1 : Byte := 0x5A
def preamble2 : Byte := 0xA5
def maxPayload : Nat := 512
def frameDeadlineMs : Nat := 200
def defaultReplyTimeoutMs : Nat := 500
def maxRetries : Nat := 3
def requestPayloadLen : Nat := 1
def msgStatus : Byte := 0
def msgAck : Byte := 1
def msgNack : Byte := 2
def msgRequest : Byte := 3
def msgDomainBase : Byte := 4
def nackUnknown : Byte := 0
def nackPayloadOutOfRange : Byte := 1
def nackInvalidCrc : Byte := 2
def nackInvalidMessageType : Byte := 3
def nackInvalidPayloadLength : Byte := 4
def nackMessageTypeNotSupported : Byte := 5

/-- The defaults of R9. `FIRST_TID` has none (OPEN): 0 is DESIGN CHOICE (log entry 8), unsafe. -/
def defaultParams : Params where
  firstTid := 0
  tidConsumedOnGateReject := true
  requestRepeatable := true
  requestTimeoutMs := defaultReplyTimeoutMs
  queueCapacity := none

/-! ## Free values -/

/-- The unspecified registers after the `n`-th RESET event (R41, R290; U3, U4, U5). Log entry 11, safe. -/
opaque resetDraw (n : Nat) : ResetDraw

/-- `DomainHandler` (R226, U9): the answer to the `n`-th call, where the host's answer is not already among the inputs of
the DOM port. Log entry 13, safe. -/
opaque domainHandler (n : Nat) (f : Frame) : Verdict

/-- What `Serialize` answers above 512 payload bytes, where 41_frame_codec.md R131 leaves it undefined (D41). Log entry 14,
safe. -/
opaque oversizedSerialize (msgType tid : Byte) (payload : List Byte) : List Byte

end Config

end Sys2Proof
end

