-- ==== Sys2Proof/Syntax.lean ====
section
/-! DEFINITION. The instructions: one constructor for each row of spec/opcode_table.json, in the table's order, the input
words they are read from, and the reasons a word is no instruction. -/

namespace Sys2Proof

/-- The eighteen input events (30_encoding.md R84, R85) and the five classes of received frame (R102). A frame's operands
are the table's `source_fields`; its `length` field is the length of `payload` (R83). -/
inductive Instr where
  | reset
  | openChannel
  | closeChannel
  | setReplyGranted (v : Bool)
  | crcInit
  | crcUpdate (b : Byte)
  | crcValue
  | fbNew (t : Byte) (r : Bool) (m : U16)
  | fbAppendU8 (v : Byte)
  | fbAppendU16 (v : U16)
  | fbAppendU32 (v : U32)
  | fbAppendRaw (u : List Byte)
  | sendMessage
  | sendRequest (q : Byte)
  | queueMessage
  | rxByte (b : Byte)
  | frameDeadlineFire
  | replyTimeoutFire
  | frameStatus (tid : Byte) (payload : List Byte) (crc : U16)
  | frameAck (tid : Byte) (payload : List Byte) (crc : U16)
  | frameNack (tid : Byte) (payload : List Byte) (crc : U16)
  | frameRequest (tid : Byte) (payload : List Byte) (crc : U16)
  | frameDomain (msgType : Byte) (tid : Byte) (payload : List Byte) (crc : U16)
deriving DecidableEq, Repr

/-- One delivery of the environment: bytes of event words (R88; CMD, RX and TMR ports), as a rule one whole word, or bytes that
arrive on the receive stream with no other event between them, as a rule one whole wire frame (the pseudo-events RX_BYTES and
RX_FRAME of R101; log entries 3, 4 and 23). -/
inductive InputWord where
  | event (bytes : List Byte)
  | wire (bytes : List Byte)
deriving DecidableEq, Repr

/-- Why bytes are not one whole instruction. Only the first two stop a step (R92); what a step does with the others is
`Machine.fetch`. -/
inductive DecodeError where
  /-- Byte 0 is none of the eighteen codes (R92, U1). -/
  | reservedOpcode
  /-- An operand value that R92 and U2 reserve. -/
  | reservedOperand
  /-- The word is shorter than its format (R88) or its length field says. -/
  | truncated
  /-- Bytes stand after the end of the word (R88). -/
  | trailingBytes
  /-- Wire bytes that do not begin `5A A5` (R80). -/
  | noPreamble
  /-- Wire bytes whose length field is above 512: no frame (R83). -/
  | oversizedLength
deriving DecidableEq, Repr

end Sys2Proof
end

