-- ==== Sys2Proof/Machine/Units.lean ====
section
/-! DEFINITION. The types of the block's units, records and outputs (spec/10_state.md, 00_scope.md R12). Field names follow the
spec's `unit.field`. -/

namespace Sys2Proof.Machine

/-- The nine parser states, in the order R30 lists them. -/
inductive ParserState where
  | idle
  | preamble2
  | msgType
  | transactionId
  | length1
  | length2
  | payload
  | crc1
  | crc2
deriving DecidableEq, Repr

/-- Synchronous statuses (30_encoding.md R89); `Status.code` gives their numbers. -/
inductive Status where
  | ok
  | notOpen
  | msgInProgress
  | gateClosed
  | buildOverflow
deriving DecidableEq, Repr

/-- The code of a status (30_encoding.md R89, 60_exceptions.md R254; D11). -/
def Status.code : Status → Nat
  | .ok => 0
  | .notOpen => 1
  | .msgInProgress => 2
  | .gateClosed => 3
  | .buildOverflow => 4

/-- The reasons of `LOG` outputs (60_exceptions.md R275). -/
inductive LogReason where
  | badPreamble
  | oversizedLength
  | crcMismatch
  | frameDeadline
  | queueWhileClosed
  | unmatchedReply
  | requestWhileGateClosed
deriving DecidableEq, Repr

/-- The outputs of a step (00_scope.md R12). -/
inductive Output where
  /-- `TX(bytes)`. -/
  | tx (bytes : List Byte)
  /-- `RET(status)`; the value returned is `status.code`. -/
  | ret (status : Status)
  /-- `VAL(v)`. -/
  | val (v : U16)
  /-- `EVT requestReceived(tid, type)`. -/
  | requestReceived (tid requestedType : Byte)
  /-- `EVT messageCompleted(msgType, tid, success)`. -/
  | messageCompleted (msgType tid : Byte) (success : Bool)
  /-- `EVT statusAcknowledged()`. -/
  | statusAcknowledged
  /-- `LOG(reason)`. -/
  | log (reason : LogReason)
deriving DecidableEq, Repr

/-- An outbound frame descriptor (R24); also the frame builder `fb` (R27). -/
structure Descriptor where
  msgType : Byte
  payload : List Byte
  repeatable : Bool
  timeoutMs : Nat
deriving DecidableEq, Repr

/-- A Pending Exchange (R33). -/
structure Pending where
  msgType : Byte
  tid : Byte
  payload : List Byte
  retryCount : Nat
  repeatable : Bool
  timeoutMs : Nat
deriving DecidableEq, Repr

/-- The CRC engine of the command port (R25). Its table is the constant `crcTable` (R26). -/
structure CrcUnit where
  acc : U16
deriving DecidableEq, Repr

/-- The Parser Session registers (R28), the sequencing register (R30) and the deadline flag (R32). -/
structure Parser where
  state : ParserState
  crc : U16
  msgType : Byte
  tid : Byte
  length : U16
  count : Nat
  payload : List Byte
  rxCrc : U16
  deadlineArmed : Bool
deriving DecidableEq, Repr

/-- The reliability layer (R29, R32, R33, R34). `isOpen` is the spec's `r.open`. -/
structure Reliability where
  isOpen : Bool
  replyGranted : Bool
  nextTid : Byte
  pending : Option Pending
  queue : List Descriptor
  replyTimerArmed : Bool
  replyTimerMs : Nat
deriving DecidableEq, Repr

/-- The DOM port (R22): the answers the host is going to return, oldest first, and the frames handed to it so far. -/
structure DomPort where
  verdicts : List Verdict
  calls : List Frame
deriving DecidableEq, Repr

end Sys2Proof.Machine
end

