-- ==== Sys2Proof/Machine/ResetValues.lean ====
section
/-! DEFINITION. The reset values of the units (10_state.md R41, 70_reset_and_hazards.md R290). What R41 calls unspecified is an
argument. -/

namespace Sys2Proof.Machine

/-- The frame builder after reset (R41). -/
def resetBuilder : Descriptor where
  msgType := 0
  payload := []
  repeatable := false
  timeoutMs := Config.defaultReplyTimeoutMs

/-- The parser after reset (R41). The five registers that R41 calls unspecified are arguments. -/
def resetParser (crc : U16) (msgType tid : Byte) (length rxCrc : U16) : Parser where
  state := .idle
  crc := crc
  msgType := msgType
  tid := tid
  length := length
  count := 0
  payload := []
  rxCrc := rxCrc
  deadlineArmed := false

/-- The reliability layer after reset (R41). -/
def resetReliability (firstTid : Byte) (replyTimerMs : Nat) : Reliability where
  isOpen := false
  replyGranted := false
  nextTid := firstTid
  pending := none
  queue := []
  replyTimerArmed := false
  replyTimerMs := replyTimerMs

end Sys2Proof.Machine
end

