-- ==== Sys2Proof/Machine/State.lean ====
section
/-! DEFINITION. The state of the block (spec/10_state.md), all of it plain data, its value after reset, and the reasons a step
can stop. -/

namespace Sys2Proof.Machine

/-- No step of the block faults: 'every input event, in every state, has a defined step ... no rule of this spec stops the
machine, and a model needs no `Fault` constructor for it' (60_exceptions.md R250). -/
inductive Fault where
deriving DecidableEq, Repr

/-- The events to which the spec gives no step and which it says a model refuses. Every one is safe: the model stops where the
spec says nothing. -/
inductive Refusal where
  /-- Raised by `exec` for an instruction whose meaning is not written. Safe. -/
  | notModelled (mnemonic : String)
  /-- Raised by `step` on a reserved event word: an opcode that is none of the eighteen, or an operand value that R92 reserves
  (30_encoding.md R92 'a model refuses it'; 93_implementation_defined.md U1, U2; log entry 17). Safe. -/
  | reservedWord (why : DecodeError)
  /-- Raised by SEND_MESSAGE and QUEUE_MESSAGE when `fb.msgType` is Ack or Nack (43_reliability_commands.md R195, U7; log entry
  16). Safe. -/
  | hostBuiltReply
  /-- Raised by QUEUE_MESSAGE on a full queue of finite capacity (U6; log entry 15). Safe. -/
  | queueOverflow
deriving DecidableEq, Repr

/-- The machine. `params`, `inputs`, `dom`, `resetDraws` are the model's holders of the step relation's arguments and of the
environment's deliveries (R39; log entries 1, 7, 11, 13); `out` is the list of outputs so far (R12; log entry 6). -/
structure State where
  crc : CrcUnit
  fb : Descriptor
  p : Parser
  r : Reliability
  params : Params
  inputs : List InputWord
  dom : DomPort
  resetDraws : Nat
  out : List Output
deriving DecidableEq, Repr

/-- The machine right after reset (R41, R290). The registers that R41 calls unspecified hold 0 here: DESIGN CHOICE, unsafe (log
entries 9 and 10); so do the model's own fields (log entry 12). -/
def State.reset : State where
  crc := { acc := 0 }
  fb := resetBuilder
  p := resetParser 0 0 0 0 0
  r := resetReliability Config.defaultParams.firstTid 0
  params := Config.defaultParams
  inputs := []
  dom := { verdicts := [], calls := [] }
  resetDraws := 0
  out := []

end Sys2Proof.Machine
end

