-- ==== Sys2Proof/Machine/Flags.lean ====
section
/-! DEFINITION. The flags of the block (10_state.md R32): the two timers' armed flags with `arm` and `cancel`
(60_exceptions.md R262, R263), the Reply Gate, and the tests that the rules make on flags. -/

namespace Sys2Proof.Machine

/-- `arm(frame, FRAME_DEADLINE_MS)` (R262). The duration is a constant and has no register. -/
def armFrame (s : State) : State := { s with p := { s.p with deadlineArmed := true } }

/-- `cancel(frame)` (R263). -/
def cancelFrame (s : State) : State := { s with p := { s.p with deadlineArmed := false } }

/-- `arm(reply, ms)` (R262). -/
def armReply (ms : Nat) (s : State) : State := { s with r := { s.r with replyTimerArmed := true, replyTimerMs := ms } }

/-- `cancel(reply)` (R263); the recorded duration stays. -/
def cancelReply (s : State) : State := { s with r := { s.r with replyTimerArmed := false } }

/-- `r.replyGranted <- v` (R194). -/
def setGate (v : Bool) (s : State) : State := { s with r := { s.r with replyGranted := v } }

/-- `r.open <- v` (R181, R182). -/
def setOpen (v : Bool) (s : State) : State := { s with r := { s.r with isOpen := v } }

/-- Whether a message type is one of the two reply types, Ack and Nack. -/
def isReplyType (msgType : Byte) : Bool := msgType == Config.msgAck || msgType == Config.msgNack

/-- Whether the gate lets a message through (R188): open, or the message is itself an Ack or Nack. -/
def gatePasses (msgType : Byte) (s : State) : Bool := s.r.replyGranted || isReplyType msgType

/-- 'Retry allowed' (44_reliability_dispatch.md R228, R232). -/
def retryAllowed (x : Pending) : Bool := x.repeatable && decide (x.retryCount < Config.maxRetries)

/-- Whether the Outbound Queue is full: never, with infinite capacity (10_state.md R34, U6). -/
def queueFull (s : State) : Bool :=
  match s.params.queueCapacity with
  | none => false
  | some n => decide (n ≤ s.r.queue.length)

end Sys2Proof.Machine
end

