-- ==== Sys2Proof/Machine/Operands.lean ====
section
/-! DEFINITION. Operand assembly and byte order: every multi-byte quantity is little-endian (20_memory.md R60). The operand
forms of event words (30_encoding.md R88) and of the fields of a wire frame (R80, R81). -/

namespace Sys2Proof.Machine

/-- `zext_16(lo) or (zext_16(hi) << 8)`: formats E2, EN and ER of R88, and both fields of R81. -/
def u16Of (lo hi : Byte) : U16 := lo.setWidth 16 ||| (hi.setWidth 16 <<< 8)

/-- Format E4 of R88. -/
def u32Of (b0 b1 b2 b3 : Byte) : U32 :=
  b0.setWidth 32 ||| (b1.setWidth 32 <<< 8) ||| (b2.setWidth 32 <<< 16) ||| (b3.setWidth 32 <<< 24)

/-- `v[7:0]` of a `u16`. -/
def lowByte (v : U16) : Byte := v.extractLsb' 0 8

/-- `v[15:8]` of a `u16`. -/
def highByte (v : U16) : Byte := v.extractLsb' 8 8

/-- The bytes of a `u16`, least significant first (R60, R136). -/
def bytesOfU16 (v : U16) : List Byte := [lowByte v, highByte v]

/-- The bytes of a `u32`, least significant first (R60, R137). -/
def bytesOfU32 (v : U32) : List Byte :=
  [v.extractLsb' 0 8, v.extractLsb' 8 8, v.extractLsb' 16 8, v.extractLsb' 24 8]

/-- The six header bytes of a frame (R80): preamble, message type, transaction id, length. -/
def headerBytes (msgType tid : Byte) (length : U16) : List Byte :=
  [Config.preamble1, Config.preamble2, msgType, tid, lowByte length, highByte length]

/-- The wire bytes of a frame with a given CRC field (R80). -/
def frameBytes (msgType tid : Byte) (payload : List Byte) (crc : U16) : List Byte :=
  headerBytes msgType tid (BitVec.ofNat 16 payload.length) ++ payload ++ bytesOfU16 crc

end Sys2Proof.Machine
end

