-- ==== Sys2Proof/Machine/Ops.lean ====
section
/-! DEFINITION. The named operations shared by the meanings: the CRC functions (40_crc_engine.md R111, R112, R117, R121), `Serialize`
(41_frame_codec.md R131), outputs, and the writes of registers, payload buffers and queue. The block takes no exception
(60_exceptions.md R250, R258), so there is no operation that enters one or returns from one. -/

namespace Sys2Proof.Machine

/-! ## CRC functions -/

/-- One shift-left-and-conditionally-xor step with the polynomial (R111, R121). -/
def crcShift (c : U16) : U16 := if c.msb then (c <<< 1) ^^^ Config.crcPoly else c <<< 1

/-- Eight such steps. -/
def crcShift8 (c : U16) : U16 :=
  crcShift (crcShift (crcShift (crcShift (crcShift (crcShift (crcShift (crcShift c)))))))

/-- `TableEntry(i)` of R111: what the listed table holds. -/
def tableEntry (i : Byte) : U16 := crcShift8 (i.setWidth 16 <<< 8)

/-- The bitwise form of `CrcStep` (R121). -/
def crcStepBitwise (a : U16) (b : Byte) : U16 := crcShift8 (a ^^^ (b.setWidth 16 <<< 8))

/-- `CrcStep(a, b)` (R112). -/
def crcStep (a : U16) (b : Byte) : U16 := (a <<< 8) ^^^ crcEntry (highByte a ^^^ b)

/-- Folding a byte sequence into an accumulator (R117 'continuing from'). -/
def crcFold (a : U16) (u : List Byte) : U16 := u.foldl crcStep a

/-- `CrcOf(s)` (R117). -/
def crcOf (u : List Byte) : U16 := crcFold Config.crcSeed u

/-! ## Serialize -/

/-- `Serialize(t, i, s)` (R131). Above 512 payload bytes it is undefined there: a free value (log entry 14). -/
def serialize (msgType tid : Byte) (payload : List Byte) : List Byte :=
  if payload.length ≤ Config.maxPayload then
    frameBytes msgType tid payload (crcOf (headerBytes msgType tid (BitVec.ofNat 16 payload.length) ++ payload))
  else Config.oversizedSerialize msgType tid payload

/-! ## Outputs and writes -/

/-- `emit o` (00_scope.md R12): outputs are appended in the order of the emit statements (D39). -/
def emit (o : Output) (s : State) : State := { s with out := s.out ++ [o] }

/-- `emit LOG(reason)`. -/
def emitLog (reason : LogReason) (s : State) : State := emit (.log reason) s

/-- `emit RET(status)`. -/
def emitRet (status : Status) (s : State) : State := emit (.ret status) s

/-- `crc.acc <- v`. -/
def setAcc (v : U16) (s : State) : State := { s with crc := { s.crc with acc := v } }

/-- `fb <- d`. -/
def setBuilder (d : Descriptor) (s : State) : State := { s with fb := d }

/-- `r.pending <- x`. -/
def setPending (x : Option Pending) (s : State) : State := { s with r := { s.r with pending := x } }

/-- `r.queue <- q`. -/
def setQueue (q : List Descriptor) (s : State) : State := { s with r := { s.r with queue := q } }

/-- `r.nextTid <- t`. -/
def setNextTid (t : Byte) (s : State) : State := { s with r := { s.r with nextTid := t } }

/-- A write of parser registers. -/
def setParser (q : Parser) (s : State) : State := { s with p := q }

/-- `p.state <- S` (R11: the block's form of `pc <- target`). -/
def gotoState (q : ParserState) (s : State) : State := { s with p := { s.p with state := q } }

/-- The value the next free verdict is drawn from, and the answer: the host's next scripted answer where there is one, else a
free value (log entry 13). -/
def domainVerdict (f : Frame) (s : State) : Verdict :=
  match s.dom.verdicts with
  | v :: _ => v
  | [] => Config.domainHandler s.dom.calls.length f

/-- The call `onDomainFrame(f)` has been made: one answer used, the call recorded (R226 'exactly once'). -/
def recordDomainCall (f : Frame) (s : State) : State :=
  { s with dom := { verdicts := s.dom.verdicts.tail, calls := s.dom.calls ++ [f] } }

end Sys2Proof.Machine
end

