-- ==== Sys2Proof/Machine/SendPath.lean ====
section
/-! DEFINITION. The send path's procedures (spec/43_reliability_commands.md section 3) and the reply path (44_reliability_dispatch.md
R227). -/

namespace Sys2Proof.Machine

/-- `TakeFb()` (R183): a copy of the build register. -/
def takeFb (s : State) : Descriptor := s.fb

/-- The counter part of `AssignTid()` (R186): the id given out is `s.r.nextTid`; the counter goes on modulo 256. -/
def advanceTid (s : State) : State := setNextTid (s.r.nextTid + 1) s

/-- The Pending Exchange made from a descriptor and its assigned id (R187, R190). -/
def exchangeOf (d : Descriptor) (tid : Byte) : Pending where
  msgType := d.msgType
  tid := tid
  payload := d.payload
  retryCount := 0
  repeatable := d.repeatable
  timeoutMs := d.timeoutMs

/-- `AssignTid()` and the creation of the exchange (R187, R190). -/
def createExchange (d : Descriptor) (s : State) : State :=
  advanceTid (setPending (some (exchangeOf d s.r.nextTid)) s)

/-- What `SendAttempt()` does when it transmits (R188). -/
def transmitExchange (x : Pending) (s : State) : State :=
  armReply x.timeoutMs (emit (.tx (serialize x.msgType x.tid x.payload)) s)

/-- `SendAttempt()` (R188) for the Pending Exchange `x`: `some` the state after a transmission, `none` for 'abandoned', which
changes nothing. -/
def sendAttempt (x : Pending) (s : State) : Option State :=
  if gatePasses x.msgType s then some (transmitExchange x s) else none

/-- What a gate-rejected direct send leaves (R187, D10, D12). `tid` is the id it had been given. -/
def rejectAtGate (tid : Byte) (s : State) : State :=
  let s := setPending none s
  emitRet .gateClosed (if s.params.tidConsumedOnGateReject then s else setNextTid tid s)

/-- `DirectSend(d)` (R187). -/
def directSend (d : Descriptor) (s : State) : State :=
  if !s.r.isOpen then emitRet .notOpen s
  else if s.r.pending.isSome then emitRet .msgInProgress s
  else
    match sendAttempt (exchangeOf d s.r.nextTid) (createExchange d s) with
    | some s' => emitRet .ok s'
    | none => rejectAtGate s.r.nextTid (createExchange d s)

/-- Whether `Drain()` may send (R190), but for the queue being empty. -/
def canDrain (s : State) : Bool := s.r.isOpen && s.r.pending.isNone && s.r.replyGranted

/-- `Drain()` (R190). The send attempt cannot be abandoned: the gate has been tested. -/
def drain (s : State) : State :=
  match s.r.queue with
  | [] => s
  | d :: rest =>
    if canDrain s then transmitExchange (exchangeOf d s.r.nextTid) (createExchange d (setQueue rest s)) else s

/-- `TransmitReply(k, i, s)` (R227): not held by the gate, not queued, no exchange, no timer. -/
def transmitReply (kind tid : Byte) (payload : List Byte) (s : State) : State :=
  emit (.tx (serialize kind tid payload)) s

end Sys2Proof.Machine
end

