-- ==== Sys2Proof/Machine/Inbound.lean ====
section
/-! DEFINITION. Inbound dispatch, the Ack and Nack machine, retry and the reply timer (spec/44_reliability_dispatch.md). -/

namespace Sys2Proof.Machine

/-- The end of an exchange (R222, R224): timer cancelled, slot released. -/
def releaseSlot (s : State) : State := setPending none (cancelReply s)

/-- `Fail()` (R224) for the Pending Exchange `x`. -/
def failExchange (x : Pending) (s : State) : State :=
  drain (emit (.messageCompleted x.msgType x.tid false) (releaseSlot s))

/-- The exchange with one more resend counted (R228). -/
def countRetry (x : Pending) : Pending := { x with retryCount := x.retryCount + 1 }

/-- `RetryOrFail()` (R228) for the Pending Exchange `x`. The count is written before the attempt; an abandoned resend fails the
exchange (D19). -/
def retryOrFail (x : Pending) (s : State) : State :=
  if retryAllowed x then
    match sendAttempt (countRetry x) (setPending (some (countRetry x)) s) with
    | some s' => s'
    | none => failExchange (countRetry x) (setPending (some (countRetry x)) s)
  else failExchange x s

/-- The Pending Exchange that a received Ack or Nack with id `tid` matches (R222, R223, R229). -/
def matchingExchange (tid : Byte) (s : State) : Option Pending :=
  match s.r.pending with
  | some x => if x.tid = tid then some x else none
  | none => none

/-- An unmatched Ack or Nack is dropped (R229). -/
def dropUnmatched (s : State) : State := emitLog .unmatchedReply s

/-- 'Status acknowledged' fires only for a Status message (R222). -/
def notifyStatus (x : Pending) (s : State) : State :=
  if x.msgType = Config.msgStatus then emit .statusAcknowledged s else s

/-- A received Ack (R222). -/
def onAck (f : Frame) (s : State) : State :=
  match matchingExchange f.tid s with
  | some x => drain (emit (.messageCompleted x.msgType x.tid true) (notifyStatus x (releaseSlot s)))
  | none => dropUnmatched s

/-- A received Nack (R223). -/
def onNack (f : Frame) (s : State) : State :=
  match matchingExchange f.tid s with
  | some x => retryOrFail x (cancelReply s)
  | none => dropUnmatched s

/-- The requested type of a Request: `f.payload[0]` (R225), read only where the length is 1. -/
def requestedType (f : Frame) : Byte := f.payload.headD 0

/-- A received Request (R225): the length test comes first. -/
def onRequest (f : Frame) (s : State) : State :=
  if f.payload.length ≠ Config.requestPayloadLen then
    transmitReply Config.msgNack f.tid [Config.nackInvalidPayloadLength] s
  else if s.r.replyGranted then
    emit (.requestReceived f.tid (requestedType f)) (transmitReply Config.msgAck f.tid [] s)
  else emitLog .requestWhileGateClosed s

/-- The reply that a verdict calls for (R90, R226). -/
def replyToVerdict (v : Verdict) (tid : Byte) (s : State) : State :=
  match v with
  | .handled => transmitReply Config.msgAck tid [] s
  | .unhandled => transmitReply Config.msgNack tid [Config.nackMessageTypeNotSupported] s
  | .rejected reason => transmitReply Config.msgNack tid [reason] s

/-- A received Status or domain frame (R226): the handler is called exactly once. -/
def onDomain (f : Frame) (s : State) : State :=
  replyToVerdict (domainVerdict f s) f.tid (recordDomainCall f s)

/-- `Dispatch(f)` (R221). -/
def dispatch (f : Frame) (s : State) : State :=
  if f.msgType = Config.msgAck then onAck f s
  else if f.msgType = Config.msgNack then onNack f s
  else if f.msgType = Config.msgRequest then onRequest f s
  else onDomain f s

/-- REPLY_TIMEOUT_FIRE (R230). An armed timer with no exchange, which R40 item 1 excludes, has nothing to retry: only the flag
is cleared (log entry 19). -/
def execReplyTimeoutFire (s : State) : Host.Outcome State Fault Refusal :=
  if s.r.replyTimerArmed then
    match s.r.pending with
    | some x => .next (retryOrFail x (cancelReply s))
    | none => .next (cancelReply s)
  else .next s

end Sys2Proof.Machine
end

