-- ==== Sys2Proof/Machine/ByteParser.lean ====
section
/-! DEFINITION. The byte-stream parser (spec/42_byte_stream_parser.md): one operation per parser state, RX_BYTE,
FRAME_DEADLINE_FIRE, `ParserReset`, and the five classes of received frame. -/

namespace Sys2Proof.Machine

/-- `p.crc <- CrcStep(p.crc, b)`. -/
def foldByte (b : Byte) (q : Parser) : Parser := { q with crc := crcStep q.crc b }

/-- State `Idle` (R152). -/
def rxIdle (b : Byte) (s : State) : State :=
  if b = Config.preamble1 then
    setParser { (armFrame s).p with
      crc := crcStep Config.crcSeed b, count := 0, payload := [], state := .preamble2 } s
  else s

/-- State `Preamble2` (R153): a mismatching byte is consumed and not looked at again. -/
def rxPreamble2 (b : Byte) (s : State) : State :=
  if b = Config.preamble2 then setParser { foldByte b s.p with state := .msgType } s
  else emitLog .badPreamble (gotoState .idle (cancelFrame s))

/-- State `MsgType` (R154). -/
def rxMsgType (b : Byte) (s : State) : State :=
  setParser { foldByte b s.p with msgType := b, state := .transactionId } s

/-- State `TransactionId` (R155). -/
def rxTransactionId (b : Byte) (s : State) : State :=
  setParser { foldByte b s.p with tid := b, state := .length1 } s

/-- State `Length1` (R156). -/
def rxLength1 (b : Byte) (s : State) : State :=
  setParser { foldByte b s.p with length := b.setWidth 16, state := .length2 } s

/-- `p.length or (zext_16(b) << 8)` (R157), and the same for `p.rxCrc` (R161). -/
def withHighByte (low : U16) (b : Byte) : U16 := low ||| (b.setWidth 16 <<< 8)

/-- State `Length2`: assemble (R157), then validate (R158). -/
def rxLength2 (b : Byte) (s : State) : State :=
  let n := withHighByte s.p.length b
  let s := setParser { foldByte b s.p with length := n } s
  if Config.maxPayload < n.toNat then emitLog .oversizedLength (gotoState .idle (cancelFrame s))
  else if n = 0 then gotoState .crc1 s
  else gotoState .payload s

/-- State `Payload` (R159). -/
def rxPayload (b : Byte) (s : State) : State :=
  let q := { foldByte b s.p with payload := s.p.payload ++ [b], count := s.p.count + 1 }
  if s.p.count + 1 = s.p.length.toNat then setParser { q with state := .crc1 } s else setParser q s

/-- State `Crc1` (R160): not folded into `p.crc`. -/
def rxCrc1 (b : Byte) (s : State) : State :=
  setParser { s.p with rxCrc := b.setWidth 16, state := .crc2 } s

/-- The frame the parser hands over: a copy of its registers (R161, 20_memory.md R74). -/
def receivedFrame (q : Parser) : Frame where
  msgType := q.msgType
  tid := q.tid
  payload := q.payload

/-- State `Crc2` (R161): the deadline is cancelled and the parser is in `Idle` before `Dispatch` runs. -/
def rxCrc2 (b : Byte) (s : State) : State :=
  let rx := withHighByte s.p.rxCrc b
  let t := gotoState .idle (cancelFrame (setParser { s.p with rxCrc := rx } s))
  if rx = s.p.crc then dispatch (receivedFrame s.p) t else emitLog .crcMismatch t

/-- One received byte on an open channel, by parser state (R150, R151). -/
def rxOpen (b : Byte) (s : State) : State :=
  match s.p.state with
  | .idle => rxIdle b s
  | .preamble2 => rxPreamble2 b s
  | .msgType => rxMsgType b s
  | .transactionId => rxTransactionId b s
  | .length1 => rxLength1 b s
  | .length2 => rxLength2 b s
  | .payload => rxPayload b s
  | .crc1 => rxCrc1 b s
  | .crc2 => rxCrc2 b s

/-- One received byte (R151): ignored on a closed channel. -/
def rxByte (b : Byte) (s : State) : State := if s.r.isOpen then rxOpen b s else s

/-- RX_BYTE (R151). -/
def execRxByte (b : Byte) (s : State) : Host.Outcome State Fault Refusal := .next (rxByte b s)

/-- FRAME_DEADLINE_FIRE (R162). -/
def execFrameDeadlineFire (s : State) : Host.Outcome State Fault Refusal :=
  if s.p.deadlineArmed then .next (emitLog .frameDeadline (gotoState .idle (cancelFrame s))) else .next s

/-- `ParserReset()` (R163). -/
def parserReset (s : State) : State :=
  setParser { (cancelFrame s).p with state := .idle, count := 0, payload := [] } s

/-- The pseudo-event RX_BYTES (30_encoding.md R101): the RX_BYTE of each byte, in order, nothing between. -/
def rxBytes (bytes : List Byte) (s : State) : State := bytes.foldl (fun s b => rxByte b s) s

/-- FRAME.STATUS: the frame arrives on the receive stream (R101 RX_FRAME) and is dispatched by R226. -/
def execFrameStatus (tid : Byte) (payload : List Byte) (crc : U16) (s : State) : Host.Outcome State Fault Refusal :=
  .next (rxBytes (frameBytes Config.msgStatus tid payload crc) s)

/-- FRAME.ACK: the frame arrives (R101) and is dispatched by R222. -/
def execFrameAck (tid : Byte) (payload : List Byte) (crc : U16) (s : State) : Host.Outcome State Fault Refusal :=
  .next (rxBytes (frameBytes Config.msgAck tid payload crc) s)

/-- FRAME.NACK: the frame arrives (R101) and is dispatched by R223. -/
def execFrameNack (tid : Byte) (payload : List Byte) (crc : U16) (s : State) : Host.Outcome State Fault Refusal :=
  .next (rxBytes (frameBytes Config.msgNack tid payload crc) s)

/-- FRAME.REQUEST: the frame arrives (R101) and is dispatched by R225. -/
def execFrameRequest (tid : Byte) (payload : List Byte) (crc : U16) (s : State) : Host.Outcome State Fault Refusal :=
  .next (rxBytes (frameBytes Config.msgRequest tid payload crc) s)

/-- FRAME.DOMAIN: the frame arrives (R101) and is dispatched by R226. -/
def execFrameDomain (msgType tid : Byte) (payload : List Byte) (crc : U16) (s : State) : Host.Outcome State Fault Refusal :=
  .next (rxBytes (frameBytes msgType tid payload crc) s)

end Sys2Proof.Machine
end

