-- ==== Sys2Proof/Machine/Commands.lean ====
section
/-! DEFINITION. The host's commands: RESET (spec/70_reset_and_hazards.md R290), OPEN, CLOSE, SET_REPLY_GRANTED, SEND_MESSAGE,
SEND_REQUEST, QUEUE_MESSAGE (spec/43_reliability_commands.md). -/

namespace Sys2Proof.Machine

/-- The state RESET leaves (R290), with the unspecified registers drawn. The parameters, the environment's deliveries and the
outputs so far are not registers of R41 and stay. -/
def resetWith (draw : ResetDraw) (s : State) : State :=
  { s with
    crc := { acc := draw.crcAcc }
    fb := resetBuilder
    p := resetParser draw.parserCrc draw.parserMsgType draw.parserTid draw.parserLength draw.parserRxCrc
    r := resetReliability s.params.firstTid draw.replyTimerMs
    resetDraws := s.resetDraws + 1 }

/-- RESET (R290): no output, not even for a pending exchange. The draw is a free value (log entry 11). -/
def execReset (s : State) : Host.Outcome State Fault Refusal := .next (resetWith (Config.resetDraw s.resetDraws) s)

/-- OPEN (R181). -/
def execOpenChannel (s : State) : Host.Outcome State Fault Refusal := .next (if s.r.isOpen then s else setOpen true s)

/-- The failure event CLOSE reports for the Pending Exchange (R182). -/
def abortPending (s : State) : State :=
  match s.r.pending with
  | some x => emit (.messageCompleted x.msgType x.tid false) (setPending none s)
  | none => s

/-- The teardown of CLOSE (R182). -/
def teardown (s : State) : State := setOpen false (setGate false (setQueue [] (abortPending (parserReset (cancelReply s)))))

/-- CLOSE (R182). -/
def execCloseChannel (s : State) : Host.Outcome State Fault Refusal := .next (if s.r.isOpen then teardown s else s)

/-- SET_REPLY_GRANTED (R194). -/
def execSetReplyGranted (v : Bool) (s : State) : Host.Outcome State Fault Refusal :=
  .next (if v then drain (setGate true s) else setGate false s)

/-- SEND_MESSAGE (R184). A host-built Ack or Nack is reserved (R195). -/
def execSendMessage (s : State) : Host.Outcome State Fault Refusal :=
  if isReplyType s.fb.msgType then .refused .hostBuiltReply else .next (directSend (takeFb s) s)

/-- The descriptor SEND_REQUEST sends (R185). -/
def requestDescriptor (q : Byte) (s : State) : Descriptor where
  msgType := Config.msgRequest
  payload := [q]
  repeatable := s.params.requestRepeatable
  timeoutMs := s.params.requestTimeoutMs

/-- SEND_REQUEST (R185). -/
def execSendRequest (q : Byte) (s : State) : Host.Outcome State Fault Refusal := .next (directSend (requestDescriptor q s) s)

/-- QUEUE_MESSAGE (R192). A host-built Ack or Nack is reserved (R195); so is a full queue (U6). -/
def execQueueMessage (s : State) : Host.Outcome State Fault Refusal :=
  if isReplyType s.fb.msgType then .refused .hostBuiltReply
  else if !s.r.isOpen then .next (emitLog .queueWhileClosed s)
  else if queueFull s then .refused .queueOverflow
  else .next (drain (setQueue (s.r.queue ++ [takeFb s]) s))

end Sys2Proof.Machine
end

