-- ==== Sys2Proof/Machine/CrcEngine.lean ====
section
/-! DEFINITION. The CRC engine's three events (spec/40_crc_engine.md section 4). -/

namespace Sys2Proof.Machine

/-- CRC_INIT (R114). -/
def execCrcInit (s : State) : Host.Outcome State Fault Refusal := .next (setAcc Config.crcSeed s)

/-- CRC_UPDATE (R115). -/
def execCrcUpdate (b : Byte) (s : State) : Host.Outcome State Fault Refusal := .next (setAcc (crcStep s.crc.acc b) s)

/-- CRC_VALUE (R116). -/
def execCrcValue (s : State) : Host.Outcome State Fault Refusal := .next (emit (.val s.crc.acc) s)

end Sys2Proof.Machine
end

