-- ==== Sys2Proof/Machine/FrameBuilder.lean ====
section
/-! DEFINITION. The frame builder's five events (spec/41_frame_codec.md section 4). -/

namespace Sys2Proof.Machine

/-- `FbAppend(u)` (R139): all or nothing. -/
def fbAppend (u : List Byte) (s : State) : State :=
  if Config.maxPayload < s.fb.payload.length + u.length then emitRet .buildOverflow s
  else emitRet .ok (setBuilder { s.fb with payload := s.fb.payload ++ u } s)

/-- The timeout operand of FB_NEW: 0 selects the default (R134). -/
def timeoutOf (m : U16) : Nat := if m = 0 then Config.defaultReplyTimeoutMs else m.toNat

/-- FB_NEW (R134). -/
def execFbNew (t : Byte) (r : Bool) (m : U16) (s : State) : Host.Outcome State Fault Refusal :=
  .next (setBuilder { msgType := t, payload := [], repeatable := r, timeoutMs := timeoutOf m } s)

/-- FB_APPEND_U8 (R135). -/
def execFbAppendU8 (v : Byte) (s : State) : Host.Outcome State Fault Refusal := .next (fbAppend [v] s)

/-- FB_APPEND_U16 (R136). -/
def execFbAppendU16 (v : U16) (s : State) : Host.Outcome State Fault Refusal := .next (fbAppend (bytesOfU16 v) s)

/-- FB_APPEND_U32 (R137). -/
def execFbAppendU32 (v : U32) (s : State) : Host.Outcome State Fault Refusal := .next (fbAppend (bytesOfU32 v) s)

/-- FB_APPEND_RAW (R138). -/
def execFbAppendRaw (u : List Byte) (s : State) : Host.Outcome State Fault Refusal := .next (fbAppend u s)

end Sys2Proof.Machine
end

