-- ==== Sys2Proof/Machine/Dispatch.lean ====
section
/-! DEFINITION. What each instruction does: one arm per constructor of `Instr`, one direct call each. -/

namespace Sys2Proof.Machine

def exec (i : Instr) (s : State) : Host.Outcome State Fault Refusal :=
  match i with
  | .reset => Sys2Proof.Machine.execReset s
  | .openChannel => Sys2Proof.Machine.execOpenChannel s
  | .closeChannel => Sys2Proof.Machine.execCloseChannel s
  | .setReplyGranted v => Sys2Proof.Machine.execSetReplyGranted v s
  | .crcInit => Sys2Proof.Machine.execCrcInit s
  | .crcUpdate b => Sys2Proof.Machine.execCrcUpdate b s
  | .crcValue => Sys2Proof.Machine.execCrcValue s
  | .fbNew t r m => Sys2Proof.Machine.execFbNew t r m s
  | .fbAppendU8 v => Sys2Proof.Machine.execFbAppendU8 v s
  | .fbAppendU16 v => Sys2Proof.Machine.execFbAppendU16 v s
  | .fbAppendU32 v => Sys2Proof.Machine.execFbAppendU32 v s
  | .fbAppendRaw u => Sys2Proof.Machine.execFbAppendRaw u s
  | .sendMessage => Sys2Proof.Machine.execSendMessage s
  | .sendRequest q => Sys2Proof.Machine.execSendRequest q s
  | .queueMessage => Sys2Proof.Machine.execQueueMessage s
  | .rxByte b => Sys2Proof.Machine.execRxByte b s
  | .frameDeadlineFire => Sys2Proof.Machine.execFrameDeadlineFire s
  | .replyTimeoutFire => Sys2Proof.Machine.execReplyTimeoutFire s
  | .frameStatus tid payload crc => Sys2Proof.Machine.execFrameStatus tid payload crc s
  | .frameAck tid payload crc => Sys2Proof.Machine.execFrameAck tid payload crc s
  | .frameNack tid payload crc => Sys2Proof.Machine.execFrameNack tid payload crc s
  | .frameRequest tid payload crc => Sys2Proof.Machine.execFrameRequest tid payload crc s
  | .frameDomain msgType tid payload crc => Sys2Proof.Machine.execFrameDomain msgType tid payload crc s

end Sys2Proof.Machine
end

