-- ==== Sys2Proof/WellFormed.lean ====
section
/-! DEFINITION. Which terms of `Instr` are instructions: what the types of `Instr` do not already say. -/

namespace Sys2Proof

/-- A payload of at most 512 bytes (10_state.md R23 'hard ceiling'; the count of FB_APPEND_RAW, 30_encoding.md R92). -/
def payloadFits (u : List Byte) : Bool := decide (u.length ≤ Config.maxPayload)

/-- Every other operand is well-formed by its type: `Bool` for the one-bit fields whose upper bits R92 reserves, a word of
the field's width elsewhere. The FRAME.DOMAIN row takes the message types 4 to 255 (R102). -/
def Instr.wellFormed : Instr → Bool
  | .reset => true
  | .openChannel => true
  | .closeChannel => true
  | .setReplyGranted _ => true
  | .crcInit => true
  | .crcUpdate _ => true
  | .crcValue => true
  | .fbNew _ _ _ => true
  | .fbAppendU8 _ => true
  | .fbAppendU16 _ => true
  | .fbAppendU32 _ => true
  | .fbAppendRaw u => payloadFits u
  | .sendMessage => true
  | .sendRequest _ => true
  | .queueMessage => true
  | .rxByte _ => true
  | .frameDeadlineFire => true
  | .replyTimeoutFire => true
  | .frameStatus _ payload _ => payloadFits payload
  | .frameAck _ payload _ => payloadFits payload
  | .frameNack _ payload _ => payloadFits payload
  | .frameRequest _ payload _ => payloadFits payload
  | .frameDomain msgType _ payload _ => decide (Config.msgDomainBase.toNat ≤ msgType.toNat) && payloadFits payload

/-- The eighteen input events of R84, as against the five classes of received frame. -/
def Instr.isEvent : Instr → Bool
  | .frameStatus _ _ _ => false
  | .frameAck _ _ _ => false
  | .frameNack _ _ _ => false
  | .frameRequest _ _ _ => false
  | .frameDomain _ _ _ _ => false
  | .reset => true
  | .openChannel => true
  | .closeChannel => true
  | .setReplyGranted _ => true
  | .crcInit => true
  | .crcUpdate _ => true
  | .crcValue => true
  | .fbNew _ _ _ => true
  | .fbAppendU8 _ => true
  | .fbAppendU16 _ => true
  | .fbAppendU32 _ => true
  | .fbAppendRaw _ => true
  | .sendMessage => true
  | .sendRequest _ => true
  | .queueMessage => true
  | .rxByte _ => true
  | .frameDeadlineFire => true
  | .replyTimeoutFire => true

end Sys2Proof
end

