-- ==== Sys2Proof/Decode.lean ====
section
/-! DEFINITION. The decoder, total on any bytes and rejecting by name, and the encoder. Event words: 30_encoding.md R85 and
R88. Wire frames: R80, R81, and the WIRE rows of R102, tried in the table's order. -/

namespace Sys2Proof

open Machine (u16Of u32Of bytesOfU16 bytesOfU32 frameBytes)

/-- What a decoder answers: an instruction and the bytes after it, or why there is none. -/
abbrev Decoded := Except DecodeError (Instr × List Byte)

/-- Format E1: one operand byte. -/
def decodeE1 (f : Byte → Except DecodeError Instr) : List Byte → Decoded
  | a :: rest =>
    match f a with
    | .ok i => .ok (i, rest)
    | .error e => .error e
  | [] => .error .truncated

/-- Format E2: a 16 bit operand. -/
def decodeE2 (f : U16 → Instr) : List Byte → Decoded
  | l :: h :: rest => .ok (f (u16Of l h), rest)
  | _ => .error .truncated

/-- Format E4: a 32 bit operand. -/
def decodeE4 (f : U32 → Instr) : List Byte → Decoded
  | b0 :: b1 :: b2 :: b3 :: rest => .ok (f (u32Of b0 b1 b2 b3), rest)
  | _ => .error .truncated

/-- A one-bit operand in a byte whose bits 7:1 are zero (R92, U2). -/
def bitOperand (a : Byte) : Except DecodeError Bool :=
  if a = 0 then .ok false else if a = 1 then .ok true else .error .reservedOperand

/-- Format E1 of SET_REPLY_GRANTED. -/
def decodeSetReplyGranted (a : Byte) : Except DecodeError Instr :=
  match bitOperand a with
  | .ok v => .ok (.setReplyGranted v)
  | .error e => .error e

/-- Format EN: message type, repeatable flag, timeout. -/
def decodeEN : List Byte → Decoded
  | t :: f :: l :: h :: rest =>
    match bitOperand f with
    | .ok r => .ok (.fbNew t r (u16Of l h), rest)
    | .error e => .error e
  | _ => .error .truncated

/-- Format ER: a count, then that many bytes. A count above 512 is reserved (R92). -/
def decodeER : List Byte → Decoded
  | l :: h :: rest =>
    if Config.maxPayload < (u16Of l h).toNat then .error .reservedOperand
    else if rest.length < (u16Of l h).toNat then .error .truncated
    else .ok (.fbAppendRaw (rest.take (u16Of l h).toNat), rest.drop (u16Of l h).toNat)
  | _ => .error .truncated

/-- One event word at the head of a byte list (R85). -/
def decodeEvent : List Byte → Decoded
  | [] => .error .truncated
  | op :: rest =>
    if op = 0x00 then .ok (.reset, rest)
    else if op = 0x01 then .ok (.openChannel, rest)
    else if op = 0x02 then .ok (.closeChannel, rest)
    else if op = 0x03 then decodeE1 decodeSetReplyGranted rest
    else if op = 0x10 then .ok (.crcInit, rest)
    else if op = 0x11 then decodeE1 (fun b => .ok (.crcUpdate b)) rest
    else if op = 0x12 then .ok (.crcValue, rest)
    else if op = 0x20 then decodeEN rest
    else if op = 0x21 then decodeE1 (fun v => .ok (.fbAppendU8 v)) rest
    else if op = 0x22 then decodeE2 .fbAppendU16 rest
    else if op = 0x23 then decodeE4 .fbAppendU32 rest
    else if op = 0x24 then decodeER rest
    else if op = 0x30 then .ok (.sendMessage, rest)
    else if op = 0x31 then decodeE1 (fun q => .ok (.sendRequest q)) rest
    else if op = 0x32 then .ok (.queueMessage, rest)
    else if op = 0x40 then decodeE1 (fun b => .ok (.rxByte b)) rest
    else if op = 0x41 then .ok (.frameDeadlineFire, rest)
    else if op = 0x42 then .ok (.replyTimeoutFire, rest)
    else .error .reservedOpcode

/-- The WIRE row of a message type, FRAME.DOMAIN consulted last (R102). -/
def frameInstr (msgType tid : Byte) (payload : List Byte) (crc : U16) : Instr :=
  if msgType = Config.msgStatus then .frameStatus tid payload crc
  else if msgType = Config.msgAck then .frameAck tid payload crc
  else if msgType = Config.msgNack then .frameNack tid payload crc
  else if msgType = Config.msgRequest then .frameRequest tid payload crc
  else .frameDomain msgType tid payload crc

/-- The payload and CRC field of a wire frame whose header has been read. -/
def decodeFrameBody (msgType tid : Byte) (n : Nat) (body : List Byte) : Decoded :=
  if body.length < n then .error .truncated
  else
    match body.drop n with
    | c :: d :: rest => .ok (frameInstr msgType tid (body.take n) (u16Of c d), rest)
    | _ => .error .truncated

/-- One wire frame at the head of a byte list (R80 to R83). Whether its CRC field is right is the parser's business. -/
def decodeFrame : List Byte → Decoded
  | p1 :: p2 :: t :: i :: l :: h :: body =>
    if p1 = Config.preamble1 ∧ p2 = Config.preamble2 then
      if Config.maxPayload < (u16Of l h).toNat then .error .oversizedLength
      else decodeFrameBody t i (u16Of l h).toNat body
    else .error .noPreamble
  | _ => .error .truncated

/-- The rows of the opcode table tried in file order (R102): the event rows over byte 0, then the WIRE rows, whose first
byte `5A` is no event code. -/
def decode : List Byte → Decoded
  | [] => .error .truncated
  | op :: rest => if op = Config.preamble1 then decodeFrame (op :: rest) else decodeEvent (op :: rest)

/-- A decoded word with nothing after it. -/
def wholeWord : Decoded → Except DecodeError Instr
  | .ok (i, []) => .ok i
  | .ok (_, _ :: _) => .error .trailingBytes
  | .error e => .error e

/-- The instruction that an input word as a whole is. An event word is read by the event rows only, so that opcode `5A` stays
reserved there (U1); a wire word by the WIRE rows only. -/
def decodeInput : InputWord → Except DecodeError Instr
  | .event bytes => wholeWord (decodeEvent bytes)
  | .wire bytes => wholeWord (decodeFrame bytes)

/-- The first byte of the receive stream, as the RX_BYTE it is (R84, R101). -/
def decodeWireByte : List Byte → Decoded
  | [] => .error .truncated
  | b :: rest => .ok (.rxByte b, rest)

/-- Bytes on the receive stream: a whole wire frame where they begin with one, else one byte. Nothing that arrives there is
refused: what is no frame is the parser's to drop (R91, 60_exceptions.md R251). -/
def decodeWire (bytes : List Byte) : Decoded :=
  match decodeFrame bytes with
  | .ok r => .ok r
  | .error _ => decodeWireByte bytes

/-- The first instruction of an input word, and the bytes after it. -/
def decodeNext : InputWord → Decoded
  | .event bytes => decodeEvent bytes
  | .wire bytes => decodeWire bytes

/-! ## The encoder -/

/-- A one-bit operand byte. -/
def byteOfBool (v : Bool) : Byte := if v then 1 else 0

/-- The bytes of an instruction: R85 and R88 for events, R80 for frames. -/
def encode : Instr → List Byte
  | .reset => [0x00]
  | .openChannel => [0x01]
  | .closeChannel => [0x02]
  | .setReplyGranted v => [0x03, byteOfBool v]
  | .crcInit => [0x10]
  | .crcUpdate b => [0x11, b]
  | .crcValue => [0x12]
  | .fbNew t r m => [0x20, t, byteOfBool r] ++ bytesOfU16 m
  | .fbAppendU8 v => [0x21, v]
  | .fbAppendU16 v => 0x22 :: bytesOfU16 v
  | .fbAppendU32 v => 0x23 :: bytesOfU32 v
  | .fbAppendRaw u => 0x24 :: (bytesOfU16 (BitVec.ofNat 16 u.length) ++ u)
  | .sendMessage => [0x30]
  | .sendRequest q => [0x31, q]
  | .queueMessage => [0x32]
  | .rxByte b => [0x40, b]
  | .frameDeadlineFire => [0x41]
  | .replyTimeoutFire => [0x42]
  | .frameStatus tid payload crc => frameBytes Config.msgStatus tid payload crc
  | .frameAck tid payload crc => frameBytes Config.msgAck tid payload crc
  | .frameNack tid payload crc => frameBytes Config.msgNack tid payload crc
  | .frameRequest tid payload crc => frameBytes Config.msgRequest tid payload crc
  | .frameDomain msgType tid payload crc => frameBytes msgType tid payload crc

/-- The input word of an instruction. -/
def inputWordOf (i : Instr) : InputWord := if i.isEvent then .event (encode i) else .wire (encode i)

/-! ## Words of the opcode table -/

/-- The longest instruction, in bytes: a frame of 512 payload bytes (00_scope.md R8). -/
def longestInstr : Nat := 6 + Config.maxPayload + 2

/-- The `n` low bytes of a number, least significant first. -/
def lowBytes : Nat → Nat → List Byte
  | 0, _ => []
  | n + 1, w => BitVec.ofNat 8 w :: lowBytes n (w / 256)

/-- The bytes that a table word itself gives, first byte first. Byte 0 of an instruction is the least significant byte of
`w`; the table writes the three match bytes of a WIRE row with frame byte 0 leftmost (R102), and a 24 bit word that reads
`5A A5` from that end is taken so (log entry 5). -/
def tableWordBytes (nbits w : Nat) : List Byte :=
  let low := lowBytes (nbits / 8) w
  if nbits = 24 ∧ low.reverse.take 2 = [Config.preamble1, Config.preamble2] then low.reverse else low

/-- The same bytes with zeros after them: eight, the shortest frame (R8), where that is enough to read an instruction, else as
many as the longest instruction has. -/
def tableBytes (nbits w : Nat) : List Byte :=
  match decode (tableWordBytes nbits w ++ List.replicate 8 0) with
  | .error .truncated => tableWordBytes nbits w ++ List.replicate longestInstr 0
  | _ => tableWordBytes nbits w ++ List.replicate 8 0

/-- The instruction of a word of the opcode table (host interface). -/
def decodeTableWord (nbits w : Nat) : Option Instr :=
  match decode (tableBytes nbits w) with
  | .ok (i, _) => some i
  | .error _ => none

end Sys2Proof
end

