-- ==== Sys2Proof/Machine/Fetch.lean ====
section
/-! DEFINITION. Taking the next input word (00_scope.md R14), and placing one for the host. -/

namespace Sys2Proof.Machine

/-- What a step finds at its input. -/
inductive Fetched where
  /-- No whole event: the block does nothing. -/
  | waiting (s : State)
  /-- A reserved event word. -/
  | refused (why : DecodeError)
  /-- An instruction, and the state with the instruction's bytes consumed. -/
  | instr (i : Instr) (s : State)
deriving DecidableEq, Repr

/-- The bytes of an input word after its first instruction, delivered next and on the same port (log entry 23). -/
def unread (w : InputWord) (left : List Byte) : List InputWord :=
  match w, left with
  | _, [] => []
  | .event _, b :: u => [.event (b :: u)]
  | .wire _, b :: u => [.wire (b :: u)]

/-- The input when the oldest word is not yet a whole event: the rest of it comes with the next bytes of the event ports, and
the receive stream goes on meanwhile (20_memory.md R70, log entry 23). -/
def awaitRest (w : InputWord) (rest : List InputWord) : List InputWord :=
  match w, rest with
  | .wire _, rest => rest
  | .event bytes, [] => [.event bytes]
  | .event bytes, .event more :: later => .event (bytes ++ more) :: later
  | .event bytes, .wire more :: later => .wire more :: .event bytes :: later

/-- The first instruction of the oldest input word is taken. With no whole event at its input the block waits (R276, log entries
1 and 23). -/
def fetch (s : State) : Fetched :=
  match s.inputs with
  | [] => .waiting s
  | w :: rest =>
    match decodeNext w with
    | .ok (i, left) => .instr i { s with inputs := unread w left ++ rest }
    | .error .truncated => .waiting { s with inputs := awaitRest w rest }
    | .error e => .refused e

/-- The input word of the instruction that a byte list begins with; a list that begins with none stands as a wire word where it
begins with the first preamble byte, else as an event word. -/
def firstWord (bytes : List Byte) : InputWord :=
  match decode bytes with
  | .ok (i, rest) =>
    if i.isEvent then .event (bytes.take (bytes.length - rest.length))
    else .wire (bytes.take (bytes.length - rest.length))
  | .error _ => if bytes.head? = some Config.preamble1 then .wire bytes else .event bytes

/-- An input word put before all that wait. -/
def placeWord (w : InputWord) (s : State) : State := { s with inputs := w :: s.inputs }

end Sys2Proof.Machine
end

