-- ==== Sys2Proof/Machine/Step.lean ====
section
/-! DEFINITION. One step of the block: it consumes exactly one input event (00_scope.md R14). -/

namespace Sys2Proof.Machine

/-- One step. With no whole event at the input nothing happens (log entries 1 and 23); a reserved event word is refused, as R92,
U1 and U2 say (log entry 17). -/
def step (s : State) : Host.Outcome State Fault Refusal :=
  match fetch s with
  | .waiting s' => .next s'
  | .refused why => .refused (.reservedWord why)
  | .instr i s' => exec i s'

/-- `s` with the instruction of a word of the opcode table placed as its next input (log entry 2). -/
def State.withFetchWord (s : State) (nbits w : Nat) : State := placeWord (firstWord (tableBytes nbits w)) s

end Sys2Proof.Machine
end

