-- ==== Sys2Proof/Safety.lean ====
section
/-! DEFINITION. The terms that claims are stated in: the invariants of 10_state.md R40, the meaning of a parser session, runs of
instructions, and the states that the rules of the reliability layer lead to, each written out as one record. -/

namespace Sys2Proof.Machine

/-! ## Invariants -/

/-- Neither Ack nor Nack (R40 item 7). -/
def notReplyType (msgType : Byte) : Prop := msgType ≠ Config.msgAck ∧ msgType ≠ Config.msgNack

/-- The parser states of a session before its first payload byte. -/
def beforePayload : ParserState → Bool
  | .preamble2 => true
  | .msgType => true
  | .transactionId => true
  | .length1 => true
  | .length2 => true
  | .idle => false
  | .payload => false
  | .crc1 => false
  | .crc2 => false

/-- The invariants of R40, item by item. `header_has_no_payload` is the model's own addition, without which item 5 is not
kept by the step of the second length byte: it follows from R152, which clears `p.count` at the start of a session. -/
structure State.Inv (s : State) : Prop where
  /-- Item 1. -/
  reply_timer_iff_pending : s.r.replyTimerArmed = s.r.pending.isSome
  /-- Item 2. -/
  deadline_iff_session : s.p.deadlineArmed = true ↔ s.p.state ≠ .idle
  /-- Item 3. -/
  closed_is_clean : s.r.isOpen = false →
    s.r.pending = none ∧ s.r.queue = [] ∧ s.p.state = .idle ∧ s.p.deadlineArmed = false ∧ s.r.replyTimerArmed = false
  /-- Item 4. -/
  queue_is_drained : s.r.isOpen = true → s.r.pending = none → s.r.replyGranted = true → s.r.queue = []
  /-- Item 5, first half. -/
  payload_is_counted : s.p.payload.length = s.p.count ∧ s.p.count ≤ Config.maxPayload
  /-- Item 5, second half. -/
  payload_state_in_range : s.p.state = .payload → s.p.count < s.p.length.toNat ∧ s.p.length.toNat ≤ Config.maxPayload
  /-- The model's addition to item 5. -/
  header_has_no_payload : beforePayload s.p.state = true → s.p.count = 0
  /-- Item 6, the builder. -/
  builder_fits : s.fb.payload.length ≤ Config.maxPayload
  /-- Items 6 and 7, the Pending Exchange. -/
  pending_is_legal : ∀ x, s.r.pending = some x →
    x.payload.length ≤ Config.maxPayload ∧ x.retryCount ≤ Config.maxRetries ∧ notReplyType x.msgType
  /-- Items 6 and 7, the queue. -/
  queue_is_legal : ∀ d ∈ s.r.queue, d.payload.length ≤ Config.maxPayload ∧ notReplyType d.msgType

/-- The bytes of the session so far that the CRC covers (R80), read back from the parser's registers. -/
def sessionBytes (q : Parser) : List Byte :=
  match q.state with
  | .idle => []
  | .preamble2 => [Config.preamble1]
  | .msgType => [Config.preamble1, Config.preamble2]
  | .transactionId => [Config.preamble1, Config.preamble2, q.msgType]
  | .length1 => [Config.preamble1, Config.preamble2, q.msgType, q.tid]
  | .length2 => [Config.preamble1, Config.preamble2, q.msgType, q.tid, lowByte q.length]
  | .payload => headerBytes q.msgType q.tid q.length ++ q.payload
  | .crc1 => headerBytes q.msgType q.tid q.length ++ q.payload
  | .crc2 => headerBytes q.msgType q.tid q.length ++ q.payload

/-- A live session is what its registers say (R28, R164): `p.crc` is the CRC of the bytes received. Only bits 7:0 of
`p.length` and `p.rxCrc` are set after one byte of each (R28). The payload buffer is empty until the length is known, has
`p.count` bytes, and has the declared length once the parser waits for the CRC. -/
structure State.SessionSound (s : State) : Prop where
  crc_covers_session : s.p.state ≠ .idle → s.p.crc = crcOf (sessionBytes s.p)
  half_length : s.p.state = .length2 → highByte s.p.length = 0
  header_has_no_payload : beforePayload s.p.state = true → s.p.payload = []
  payload_is_counted : s.p.state ≠ .idle → s.p.payload.length = s.p.count
  payload_in_range : s.p.state = .payload → s.p.length.toNat ≤ Config.maxPayload
  payload_complete : s.p.state = .crc1 ∨ s.p.state = .crc2 →
    s.p.payload.length = s.p.length.toNat ∧ s.p.length.toNat ≤ Config.maxPayload
  half_crc : s.p.state = .crc2 → highByte s.p.rxCrc = 0

/-! ## Runs -/

/-- `t` is what executing these instructions one after the other leads to from `s`, each answering a next state. -/
def RunsTo : List Instr → State → State → Prop
  | [], s, t => s = t
  | i :: rest, s, t => ∃ u, exec i s = .next u ∧ RunsTo rest u t

/-! ## States the rules lead to -/

/-- Outputs appended. -/
def saying (outs : List Output) (s : State) : State := { s with out := s.out ++ outs }

/-- An append to the builder's payload: all of it, or none where it would pass 512 bytes (R139). -/
def afterAppend (u : List Byte) (s : State) : State :=
  if s.fb.payload.length + u.length ≤ 512 then
    { s with fb := { s.fb with payload := s.fb.payload ++ u }, out := s.out ++ [.ret .ok] }
  else { s with out := s.out ++ [.ret .buildOverflow] }

/-- The head of the queue sent, where R190 lets it be sent. -/
def afterDrain (s : State) : State :=
  match s.r.queue with
  | [] => s
  | d :: rest =>
    if s.r.isOpen = true ∧ s.r.pending = none ∧ s.r.replyGranted = true then
      { s with
        r := { s.r with
          queue := rest
          nextTid := s.r.nextTid + 1
          pending := some ⟨d.msgType, s.r.nextTid, d.payload, 0, d.repeatable, d.timeoutMs⟩
          replyTimerArmed := true
          replyTimerMs := d.timeoutMs }
        out := s.out ++ [.tx (serialize d.msgType s.r.nextTid d.payload)] }
    else s

/-- The exchange over, these outputs given, and the next queued frame sent (R222, R224). -/
def afterExchange (outs : List Output) (s : State) : State :=
  afterDrain { s with r := { s.r with pending := none, replyTimerArmed := false }, out := s.out ++ outs }

/-- A retry of the exchange `x`, or its failure (R228). -/
def afterRetry (x : Pending) (s : State) : State :=
  if x.repeatable = true ∧ x.retryCount < 3 ∧ (s.r.replyGranted = true ∨ x.msgType = 1 ∨ x.msgType = 2) then
    { s with
      r := { s.r with
        pending := some { x with retryCount := x.retryCount + 1 }
        replyTimerArmed := true
        replyTimerMs := x.timeoutMs }
      out := s.out ++ [.tx (serialize x.msgType x.tid x.payload)] }
  else afterExchange [.messageCompleted x.msgType x.tid false] s

/-- A direct send of the descriptor `d` (R187). -/
def afterDirectSend (d : Descriptor) (s : State) : State :=
  if s.r.isOpen = false then saying [.ret .notOpen] s
  else if s.r.pending ≠ none then saying [.ret .msgInProgress] s
  else if s.r.replyGranted = true ∨ d.msgType = 1 ∨ d.msgType = 2 then
    { s with
      r := { s.r with
        nextTid := s.r.nextTid + 1
        pending := some ⟨d.msgType, s.r.nextTid, d.payload, 0, d.repeatable, d.timeoutMs⟩
        replyTimerArmed := true
        replyTimerMs := d.timeoutMs }
      out := s.out ++ [.tx (serialize d.msgType s.r.nextTid d.payload), .ret .ok] }
  else
    { s with
      r := { s.r with
        nextTid := if s.params.tidConsumedOnGateReject = true then s.r.nextTid + 1 else s.r.nextTid }
      out := s.out ++ [.ret .gateClosed] }

/-- The CRC field of a good frame (R80). -/
def goodCrc (msgType tid : Byte) (payload : List Byte) : U16 :=
  crcOf (headerBytes msgType tid (BitVec.ofNat 16 payload.length) ++ payload)

/-- The parser after a whole frame with the CRC field `crc`: back in `Idle`, the deadline disarmed, the session's registers
holding what was received. -/
def afterFrame (msgType tid : Byte) (payload : List Byte) (crc : U16) (s : State) : State :=
  { s with
    p := {
      state := .idle
      crc := goodCrc msgType tid payload
      msgType := msgType
      tid := tid
      length := BitVec.ofNat 16 payload.length
      count := payload.length
      payload := payload
      rxCrc := crc
      deadlineArmed := false } }

/-- An Ack on the wire (R87). -/
def ackBytes (tid : Byte) : List Byte := serialize 1 tid []

/-- A Nack on the wire (R87). -/
def nackBytes (tid reason : Byte) : List Byte := serialize 2 tid [reason]

/-- The reply a verdict calls for (R90). -/
def verdictReply (v : Verdict) (tid : Byte) : List Byte :=
  match v with
  | .handled => ackBytes tid
  | .unhandled => nackBytes tid 5
  | .rejected reason => nackBytes tid reason

/-- A domain or Status frame answered with the verdict `v`, which is the host's next answer where it has given one (R226). -/
def answeredWith (v : Verdict) (f : Frame) (s : State) : State :=
  { s with
    dom := { verdicts := s.dom.verdicts.tail, calls := s.dom.calls ++ [f] }
    out := s.out ++ [.tx (verdictReply v f.tid)] }

end Sys2Proof.Machine
end

