-- ==== Sys2Proof/Certificates/Slice0/Obligations.lean ====
section
/-! DEFINITION. The statements for the provers. Each docstring names the rule or section of spec/ that it formalises. Where a
statement gives the whole next state, the parser's data registers after an abandoned session and `r.replyTimerMs` with the
timer not armed keep their values, as the rules write none; 93_implementation_defined.md U4 and U5 call them any value, so that
clause is the model's choice (log entry 20). -/

open Sys2Proof Sys2Proof.Machine

/-! ## CRC engine (spec/40_crc_engine.md) -/

/-- 40_crc_engine.md section 2 (R111): the listed ROM holds what `TableEntry` computes, and has 256 entries. The construction
is the spec's own (general knowledge, log entry 21). -/
def Obligations.CrcTableHoldsTableEntries : Prop :=
  crcTable.length = 256 ∧ ∀ i : Byte, crcTable[i.toNat]? = some (tableEntry i)

/-- 40_crc_engine.md section 3 (R112): the data byte and the high byte of the accumulator select the entry that is folded into
the accumulator moved left by one byte. The formula is the spec's own (general knowledge, log entry 21). -/
def Obligations.CrcStepCombinesHighByteAndTable : Prop :=
  (∀ (a : U16) (b : Byte), crcTable[(a.extractLsb' 8 8 ^^^ b).toNat]? = some (crcStep a b ^^^ (a <<< 8))) ∧
  crcStep 0x0000 0x00 = 0x0000 ∧ crcStep 0x0000 0x01 = 0x1021 ∧ crcStep 0xFFFF 0xFF = 0xFF00

/-- 40_crc_engine.md section 5: the table-driven step is the bitwise one (R121, the spec's general knowledge, log entry 21). -/
def Obligations.CrcStepIsBitwiseCrc : Prop :=
  ∀ (a : U16) (b : Byte), crcStep a b = crcStepBitwise a b

/-- 40_crc_engine.md sections 5 and 2 (R118, derived by the spec from the table): for a fixed byte a bijection of the accumulator, for a fixed
accumulator injective in the byte. -/
def Obligations.CrcStepIsBijectiveAndInjective : Prop :=
  (∀ b : Byte, Function.Bijective (fun a : U16 => crcStep a b)) ∧
  (∀ a : U16, Function.Injective (fun b : Byte => crcStep a b))

/-- 40_crc_engine.md section 3 (R117, derived by the spec): the seed for no bytes, and incremental: the CRC of a concatenation
goes on from the CRC of its first part. -/
def Obligations.CrcOfIsIncremental : Prop :=
  crcOf [] = 0xFFFF ∧ ∀ s u : List Byte, crcOf (s ++ u) = u.foldl crcStep (crcOf s)

/-- R119: one byte changed anywhere in a payload changes the CRC of the frame. -/
def Obligations.SingleByteCorruptionChangesCrc : Prop :=
  ∀ (t i : Byte) (pre post : List Byte) (b c : Byte), b ≠ c →
    goodCrc t i (pre ++ b :: post) ≠ goodCrc t i (pre ++ c :: post)

/-- R114. -/
def Obligations.CrcInitSeedsAccumulator : Prop :=
  encode .crcInit = [0x10] ∧ ∀ s : State, exec .crcInit s = .next { s with crc := { acc := 0xFFFF } }

/-- R115, with its corner cases: a zero byte from the seed, the two fixed points of a zero byte, the example. -/
def Obligations.CrcUpdateFoldsOneByte : Prop :=
  (∀ b : Byte, encode (.crcUpdate b) = [0x11, b]) ∧
  (∀ (s : State) (b : Byte), exec (.crcUpdate b) s = .next { s with crc := { acc := crcStep s.crc.acc b } }) ∧
  crcStep 0xFFFF 0x00 = 0xE1F0 ∧ crcStep 0xFFFF 0x5A = 0x1A4F ∧
  (∀ a : U16, crcStep a 0x00 = a ↔ a = 0x0000 ∨ a = 0xF01F)

/-- R116: the raw accumulator is emitted and nothing else changes; the check value of the nine ASCII digits. -/
def Obligations.CrcValueEmitsAccumulator : Prop :=
  encode .crcValue = [0x12] ∧
  (∀ s : State, exec .crcValue s = .next { s with out := s.out ++ [.val s.crc.acc] }) ∧
  ∀ s : State, ∃ t,
    RunsTo (.crcInit :: ([0x31, 0x32, 0x33, 0x34, 0x35, 0x36, 0x37, 0x38, 0x39].map .crcUpdate)) s t ∧
    exec .crcValue t = .next { t with out := t.out ++ [.val 0x29B1] }

/-! ## Frame codec (spec/41_frame_codec.md) -/

/-- R131: the wire bytes of a frame, their number, and the example. -/
def Obligations.SerializeLaysOutTheFrame : Prop :=
  (∀ (t i : Byte) (s : List Byte), s.length ≤ 512 →
    serialize t i s =
      [0x5A, 0xA5, t, i, lowByte (BitVec.ofNat 16 s.length), highByte (BitVec.ofNat 16 s.length)] ++ s ++
        [lowByte (goodCrc t i s), highByte (goodCrc t i s)] ∧
    (serialize t i s).length = 8 + s.length) ∧
  serialize 1 2 [] = [0x5A, 0xA5, 0x01, 0x02, 0x00, 0x00, 0x61, 0xE9]

/-- 30_encoding.md R81 and R83: the length and CRC fields of a serialized frame, assembled little-endian, are the payload's
length and the CRC of every byte before the CRC field; the payload stands at offset 6. -/
def Obligations.SerializedFieldsReadBack : Prop :=
  ∀ (t i : Byte) (s : List Byte), s.length ≤ 512 →
    ∃ l h c d : Byte,
      (serialize t i s).take 6 = [0x5A, 0xA5, t, i, l, h] ∧
      (u16Of l h).toNat = s.length ∧
      ((serialize t i s).drop 6).take s.length = s ∧
      (serialize t i s).drop (6 + s.length) = [c, d] ∧
      u16Of c d = crcOf ((serialize t i s).take (6 + s.length))

/-- 41_frame_codec.md section 4 (FB_NEW): a fresh frame, a timeout of 0 selecting the default of 500 ms. That one build
register holds the frame and that 0 selects the default is the spec's own decision D29. -/
def Obligations.FbNewStartsFreshFrame : Prop :=
  ∀ (s : State) (t : Byte) (r : Bool) (m : U16),
    exec (.fbNew t r m) s =
      .next { s with fb := { msgType := t, payload := [], repeatable := r, timeoutMs := if m = 0 then 500 else m.toNat } }

/-- 41_frame_codec.md section 4 (the four appends): all bytes, least significant first, or none. The refusal of a whole append
is the spec's own decision D27. -/
def Obligations.FbAppendIsLittleEndianAllOrNothing : Prop :=
  ∀ s : State,
    (∀ v : Byte, exec (.fbAppendU8 v) s = .next (afterAppend [v] s)) ∧
    (∀ v : U16, exec (.fbAppendU16 v) s = .next (afterAppend [v.extractLsb' 0 8, v.extractLsb' 8 8] s)) ∧
    (∀ v : U32, exec (.fbAppendU32 v) s =
      .next (afterAppend [v.extractLsb' 0 8, v.extractLsb' 8 8, v.extractLsb' 16 8, v.extractLsb' 24 8] s)) ∧
    (∀ u : List Byte, exec (.fbAppendRaw u) s = .next (afterAppend u s))

/-- 41_frame_codec.md section 5: a scalar that fits builds the same frame as its bytes appended one by one or as a range. -/
def Obligations.ScalarAppendBuildsTheSameFrameAsItsBytes : Prop :=
  ∀ (s : State) (b0 b1 : Byte), s.fb.payload.length + 2 ≤ 512 →
    ∃ t u v, exec (.fbAppendU16 (u16Of b0 b1)) s = .next t ∧
      RunsTo [.fbAppendU8 b0, .fbAppendU8 b1] s u ∧ exec (.fbAppendRaw [b0, b1]) s = .next v ∧
      t.fb = u.fb ∧ t.fb = v.fb ∧ t.fb.payload = s.fb.payload ++ [b0, b1]

/-! ## Byte-stream parser (spec/42_byte_stream_parser.md) -/

/-- 42_byte_stream_parser.md section 1 (RX_BYTE), 60_exceptions.md section 6: on a closed channel a received byte, and so a
whole received frame, changes nothing. That is the spec's own decision D21. -/
def Obligations.ReceptionWhileClosedChangesNothing : Prop :=
  ∀ s : State, s.r.isOpen = false →
    (∀ b, exec (.rxByte b) s = .next s) ∧
    (∀ tid payload crc, exec (.frameStatus tid payload crc) s = .next s) ∧
    (∀ tid payload crc, exec (.frameAck tid payload crc) s = .next s) ∧
    (∀ tid payload crc, exec (.frameNack tid payload crc) s = .next s) ∧
    (∀ tid payload crc, exec (.frameRequest tid payload crc) s = .next s) ∧
    (∀ msgType tid payload crc, exec (.frameDomain msgType tid payload crc) s = .next s)

/-- R152. -/
def Obligations.RxByteInIdleStartsSessionOnPreamble : Prop :=
  ∀ s : State, s.r.isOpen = true → s.p.state = .idle →
    exec (.rxByte 0x5A) s =
      .next { s with p := { s.p with state := .preamble2, crc := 0x1A4F, count := 0, payload := [], deadlineArmed := true } } ∧
    ∀ b, b ≠ 0x5A → exec (.rxByte b) s = .next s

/-- 42_byte_stream_parser.md section 2 (state Preamble2). That the mismatching byte is not examined again is the spec's own
decision D24; that the session's registers then keep their values is the model's (log entry 20). -/
def Obligations.RxByteInPreamble2AcceptsOnlyA5 : Prop :=
  ∀ s : State, s.r.isOpen = true → s.p.state = .preamble2 →
    exec (.rxByte 0xA5) s = .next { s with p := { s.p with state := .msgType, crc := crcStep s.p.crc 0xA5 } } ∧
    ∀ b, b ≠ 0xA5 →
      exec (.rxByte b) s =
        .next { s with p := { s.p with state := .idle, deadlineArmed := false }, out := s.out ++ [.log .badPreamble] }

/-- R154 and R155: any value is stored, folded into the CRC, and the parser goes on. -/
def Obligations.RxByteStoresMsgTypeAndTid : Prop :=
  ∀ (s : State) (b : Byte), s.r.isOpen = true →
    (s.p.state = .msgType →
      exec (.rxByte b) s =
        .next { s with p := { s.p with state := .transactionId, msgType := b, crc := crcStep s.p.crc b } }) ∧
    (s.p.state = .transactionId →
      exec (.rxByte b) s = .next { s with p := { s.p with state := .length1, tid := b, crc := crcStep s.p.crc b } })

/-- 42_byte_stream_parser.md section 2 (states Length1 and Length2): little-endian assembly, and the length test. That the
deadline is cancelled on the oversized path is the spec's own decision D25; that the session's registers then keep their values
is the model's choice (log entry 20). -/
def Obligations.RxByteAssemblesAndValidatesLength : Prop :=
  ∀ (s : State) (b : Byte), s.r.isOpen = true →
    (s.p.state = .length1 →
      exec (.rxByte b) s =
        .next { s with p := { s.p with state := .length2, length := b.setWidth 16, crc := crcStep s.p.crc b } }) ∧
    (s.p.state = .length2 →
      let n : U16 := s.p.length ||| (b.setWidth 16 <<< 8)
      (512 < n.toNat →
        exec (.rxByte b) s =
          .next { s with
            p := { s.p with state := .idle, length := n, crc := crcStep s.p.crc b, deadlineArmed := false }
            out := s.out ++ [.log .oversizedLength] }) ∧
      (n.toNat = 0 →
        exec (.rxByte b) s = .next { s with p := { s.p with state := .crc1, length := n, crc := crcStep s.p.crc b } }) ∧
      (0 < n.toNat → n.toNat ≤ 512 →
        exec (.rxByte b) s = .next { s with p := { s.p with state := .payload, length := n, crc := crcStep s.p.crc b } }))

/-- R159: the byte is appended, counted and folded; the last one leads to Crc1. -/
def Obligations.RxByteAccumulatesPayload : Prop :=
  ∀ (s : State) (b : Byte), s.r.isOpen = true → s.p.state = .payload →
    exec (.rxByte b) s =
      .next { s with
        p := { s.p with
          payload := s.p.payload ++ [b]
          count := s.p.count + 1
          crc := crcStep s.p.crc b
          state := if s.p.count + 1 = s.p.length.toNat then .crc1 else .payload } }

/-- R160: the low CRC byte is stored and not folded. -/
def Obligations.RxByteStoresLowCrcByte : Prop :=
  ∀ (s : State) (b : Byte), s.r.isOpen = true → s.p.state = .crc1 →
    exec (.rxByte b) s = .next { s with p := { s.p with rxCrc := b.setWidth 16, state := .crc2 } }

/-- 42_byte_stream_parser.md section 2 (state Crc2): the comparison, the hand-over with the parser already in Idle, the silent
discard. That the comparison is made on the high CRC byte is the spec's own decision D26; that a discarded session's registers
keep their values is the model's choice (log entry 20). -/
def Obligations.RxByteComparesCrcAndDispatches : Prop :=
  ∀ (s : State) (b : Byte), s.r.isOpen = true → s.p.state = .crc2 →
    let rx : U16 := s.p.rxCrc ||| (b.setWidth 16 <<< 8)
    let t : State := { s with p := { s.p with rxCrc := rx, state := .idle, deadlineArmed := false } }
    (rx = s.p.crc → exec (.rxByte b) s = .next (dispatch ⟨s.p.msgType, s.p.tid, s.p.payload⟩ t)) ∧
    (rx ≠ s.p.crc → exec (.rxByte b) s = .next { t with out := s.out ++ [.log .crcMismatch] })

/-- 42_byte_stream_parser.md section 3: an armed expiry drops the session, a stale one does nothing (the spec's own decision
D4). That the session's registers keep their values is the model's choice (log entry 20). -/
def Obligations.FrameDeadlineDropsSession : Prop :=
  ∀ s : State,
    exec .frameDeadlineFire s =
      .next (if s.p.deadlineArmed = true then
        { s with p := { s.p with state := .idle, deadlineArmed := false }, out := s.out ++ [.log .frameDeadline] }
      else s)

/-- 30_encoding.md section 5 (RX_FRAME): a received frame, as an instruction, completes in every state, and does what the RX_BYTE
of each of its bytes does, in order. That the rows of the table are run so is the model's choice (log entry 3). -/
def Obligations.FrameRowIsTheRunOfItsBytes : Prop :=
  ∀ (i : Instr) (s : State), i.isEvent = false →
    ∃ t, exec i s = .next t ∧ RunsTo ((encode i).map .rxByte) s t

/-- 41_frame_codec.md section 3 (round trip), 42_byte_stream_parser.md section 4: the bytes of a serialized frame, fed to an
open parser in Idle, hand exactly that frame to the dispatcher, once, with the last byte, and the parser is back in Idle. The
spec derives it (R133, R165). -/
def Obligations.SerializedFrameIsDispatchedOnce : Prop :=
  ∀ (s : State) (t i : Byte) (payload : List Byte), s.r.isOpen = true → s.p.state = .idle → payload.length ≤ 512 →
    RunsTo ((serialize t i payload).map .rxByte) s
      (dispatch ⟨t, i, payload⟩ (afterFrame t i payload (goodCrc t i payload) s))

/-- 42_byte_stream_parser.md section 4, the half that holds of the 'if and only if' (90_conflicts.md C1): the last byte of a
sound session hands a frame over exactly when the bytes consumed since the preamble are the serialized form of that frame;
otherwise they are discarded with the log line alone. The spec derives it (R165). -/
def Obligations.OnlyValidFramesAreDispatched : Prop :=
  ∀ (s : State) (b : Byte), s.SessionSound → s.r.isOpen = true → s.p.state = .crc2 →
    let consumed := sessionBytes s.p ++ [lowByte s.p.rxCrc, b]
    let t : State :=
      { s with p := { s.p with rxCrc := u16Of (lowByte s.p.rxCrc) b, state := .idle, deadlineArmed := false } }
    (consumed = serialize s.p.msgType s.p.tid s.p.payload →
      exec (.rxByte b) s = .next (dispatch ⟨s.p.msgType, s.p.tid, s.p.payload⟩ t)) ∧
    (consumed ≠ serialize s.p.msgType s.p.tid s.p.payload →
      exec (.rxByte b) s = .next { t with out := s.out ++ [.log .crcMismatch] })

/-- The machine after reset has no live session (10_state.md section 12), so the session invariant holds there. -/
def Obligations.SessionSoundAtReset : Prop := State.reset.SessionSound

/-- 10_state.md section 3 (Parser Session), 42_byte_stream_parser.md section 4: in every state a step leads to, a live session's
CRC register is the CRC of the bytes received. -/
def Obligations.EveryStepKeepsSessionSound : Prop :=
  ∀ s t : State, s.SessionSound → step s = .next t → t.SessionSound

/-- 42_byte_stream_parser.md section 2 (state Crc2), 60_exceptions.md section 2: a frame whose CRC field is wrong is discarded:
no reply, no notification, only the log line and the parser's registers change. Each of the five classes. That the registers
then hold the discarded frame is the model's choice (log entry 20). -/
def Obligations.CorruptedFrameIsDroppedSilently : Prop :=
  ∀ (s : State) (tid : Byte) (payload : List Byte) (crc : U16),
    s.r.isOpen = true → s.p.state = .idle → payload.length ≤ 512 →
    let dropped (t : Byte) : State := saying [.log .crcMismatch] (afterFrame t tid payload crc s)
    (crc ≠ goodCrc 0 tid payload → exec (.frameStatus tid payload crc) s = .next (dropped 0)) ∧
    (crc ≠ goodCrc 1 tid payload → exec (.frameAck tid payload crc) s = .next (dropped 1)) ∧
    (crc ≠ goodCrc 2 tid payload → exec (.frameNack tid payload crc) s = .next (dropped 2)) ∧
    (crc ≠ goodCrc 3 tid payload → exec (.frameRequest tid payload crc) s = .next (dropped 3)) ∧
    ∀ t, crc ≠ goodCrc t tid payload → exec (.frameDomain t tid payload crc) s = .next (dropped t)

/-! ## Inbound dispatch (spec/44_reliability_dispatch.md) -/

/-- 44_reliability_dispatch.md section 2 (FRAME.ACK): an Ack that matches completes the exchange, its payload ignored (the spec's
own decision D40), and the next queued frame is sent; one that matches nothing is dropped (the spec's own decision D18). -/
def Obligations.AckCompletesMatchingExchange : Prop :=
  ∀ (s : State) (tid : Byte) (payload : List Byte),
    s.r.isOpen = true → s.p.state = .idle → payload.length ≤ 512 →
    let t := afterFrame 1 tid payload (goodCrc 1 tid payload) s
    (∀ x, s.r.pending = some x → x.tid = tid →
      exec (.frameAck tid payload (goodCrc 1 tid payload)) s =
        .next (afterExchange
          ((if x.msgType = 0 then [.statusAcknowledged] else []) ++ [.messageCompleted x.msgType x.tid true]) t)) ∧
    ((∀ x, s.r.pending = some x → x.tid ≠ tid) →
      exec (.frameAck tid payload (goodCrc 1 tid payload)) s = .next (saying [.log .unmatchedReply] t))

/-- 44_reliability_dispatch.md sections 2 and 3: a matching Nack, whatever its reason and length (D40), retries at once or
fails the exchange; one that matches nothing is dropped (D18). The failure of an abandoned resend is the spec's own decision
D19. -/
def Obligations.NackRetriesOrFailsMatchingExchange : Prop :=
  ∀ (s : State) (tid : Byte) (payload : List Byte),
    s.r.isOpen = true → s.p.state = .idle → payload.length ≤ 512 →
    let t := afterFrame 2 tid payload (goodCrc 2 tid payload) s
    (∀ x, s.r.pending = some x → x.tid = tid →
      exec (.frameNack tid payload (goodCrc 2 tid payload)) s = .next (afterRetry x t)) ∧
    ((∀ x, s.r.pending = some x → x.tid ≠ tid) →
      exec (.frameNack tid payload (goodCrc 2 tid payload)) s = .next (saying [.log .unmatchedReply] t))

/-- 44_reliability_dispatch.md section 4 (FRAME.REQUEST): the length test first, then the gate. The silent drop while the gate is
false is the spec's own decision D17. -/
def Obligations.RequestIsAckedNackedOrDropped : Prop :=
  ∀ (s : State) (tid : Byte) (payload : List Byte),
    s.r.isOpen = true → s.p.state = .idle → payload.length ≤ 512 →
    let t := afterFrame 3 tid payload (goodCrc 3 tid payload) s
    exec (.frameRequest tid payload (goodCrc 3 tid payload)) s =
      .next (match payload with
        | [requested] =>
          if s.r.replyGranted = true then saying [.tx (ackBytes tid), .requestReceived tid requested] t
          else saying [.log .requestWhileGateClosed] t
        | _ => saying [.tx (nackBytes tid 4)] t)

/-- 44_reliability_dispatch.md section 4 (FRAME.STATUS and FRAME.DOMAIN): the handler is called once and its verdict decides the
reply; the gate is not consulted. The verdict is the host's next answer on the DOM port, or any verdict where it has given
none (log entry 13). That the core sends these replies is the spec's own decision D16. -/
def Obligations.StatusAndDomainFramesAreAnswered : Prop :=
  ∀ (s : State) (t tid : Byte) (payload : List Byte),
    s.r.isOpen = true → s.p.state = .idle → payload.length ≤ 512 → (t = 0 ∨ 4 ≤ t.toNat) →
    ∃ v : Verdict, (∀ w, s.dom.verdicts.head? = some w → v = w) ∧
      exec (if t = 0 then .frameStatus tid payload (goodCrc t tid payload)
          else .frameDomain t tid payload (goodCrc t tid payload)) s =
        .next (answeredWith v ⟨t, tid, payload⟩ (afterFrame t tid payload (goodCrc t tid payload) s))

/-- 44_reliability_dispatch.md section 3 (REPLY_TIMEOUT_FIRE): an armed expiry retries or fails the exchange, a stale one does
nothing (the spec's own decision D4). -/
def Obligations.ReplyTimeoutRetriesOrFails : Prop :=
  ∀ s : State,
    (∀ x, s.r.replyTimerArmed = true → s.r.pending = some x → exec .replyTimeoutFire s = .next (afterRetry x s)) ∧
    (s.r.replyTimerArmed = false → exec .replyTimeoutFire s = .next s)

/-- 44_reliability_dispatch.md section 3 ('up to exactly 3' resends): with the gate open and nothing queued, a repeatable exchange
that has been resent `k` times is resent `3 - k` times more, with the same bytes, one per expiry, and fails at the expiry
after that. -/
def Obligations.RepeatableExchangeIsResentExactlyThreeTimes : Prop :=
  ∀ (s : State) (x : Pending), s.r.pending = some x → s.r.replyTimerArmed = true → s.r.replyGranted = true →
    s.r.queue = [] → x.repeatable = true → x.retryCount ≤ 3 →
    ∃ t u : State,
      RunsTo (List.replicate (3 - x.retryCount) .replyTimeoutFire) s t ∧
      t.out = s.out ++ List.replicate (3 - x.retryCount) (.tx (serialize x.msgType x.tid x.payload)) ∧
      t.r.pending = some { x with retryCount := 3 } ∧
      exec .replyTimeoutFire t = .next u ∧
      u.out = t.out ++ [.messageCompleted x.msgType x.tid false] ∧ u.r.pending = none ∧ u.r.replyTimerArmed = false

/-! ## Host commands (spec/43_reliability_commands.md, spec/70_reset_and_hazards.md) -/

/-- 43_reliability_commands.md section 2 (OPEN): the spec's own decision D20. -/
def Obligations.OpenSetsOnlyTheOpenFlag : Prop :=
  ∀ s : State, exec .openChannel s = .next { s with r := { s.r with isOpen := true } }

/-- 43_reliability_commands.md section 2 (CLOSE): everything in flight is torn down, one failure event for the Pending Exchange,
none for queued frames; on a closed channel nothing happens (the spec's own decision D20). What the parser's other registers and
`r.replyTimerMs` hold then is the model's choice (log entry 20). -/
def Obligations.CloseTearsDownTheSession : Prop :=
  ∀ s : State,
    exec .closeChannel s =
      .next (if s.r.isOpen = true then
        { s with
          p := { s.p with state := .idle, count := 0, payload := [], deadlineArmed := false }
          r := { s.r with
            isOpen := false, replyGranted := false, pending := none, queue := [], replyTimerArmed := false }
          out := s.out ++ (match s.r.pending with
            | some x => [.messageCompleted x.msgType x.tid false]
            | none => []) }
      else s)

/-- 43_reliability_commands.md section 4 (SET_REPLY_GRANTED): the gate is written; opened, it lets the head of the queue go in the
same step. That it is accepted on a closed channel is the spec's own decision D23. -/
def Obligations.SetReplyGrantedWritesGateAndDrains : Prop :=
  ∀ s : State,
    exec (.setReplyGranted false) s = .next { s with r := { s.r with replyGranted := false } } ∧
    exec (.setReplyGranted true) s = .next (afterDrain { s with r := { s.r with replyGranted := true } })

/-- 43_reliability_commands.md sections 3 and 4 (SEND_MESSAGE): the status in the order open, slot, gate; a transmission makes the
Pending Exchange, arms the timer and comes before its status. The name and effects of the gate's rejection are the spec's own
decisions D10, D11, D12. -/
def Obligations.SendMessageSendsOrReportsStatus : Prop :=
  ∀ s : State, s.fb.msgType ≠ 1 → s.fb.msgType ≠ 2 → exec .sendMessage s = .next (afterDirectSend s.fb s)

/-- 43_reliability_commands.md section 4 (SEND_REQUEST): a one-byte Request; `fb` is neither read nor written. Its repeatable flag
and timeout are the parameters of the spec's decision D28. -/
def Obligations.SendRequestSendsOneByteRequest : Prop :=
  ∀ (s : State) (q : Byte),
    exec (.sendRequest q) s =
      .next (afterDirectSend ⟨3, [q], s.params.requestRepeatable, s.params.requestTimeoutMs⟩ s)

/-- 43_reliability_commands.md section 4 (QUEUE_MESSAGE): dropped while closed (the spec's own decision D22), else appended,
and the head of the queue sent where it can be. The capacity is 93_implementation_defined.md U6's. -/
def Obligations.QueueMessageAppendsAndDrains : Prop :=
  ∀ s : State, s.fb.msgType ≠ 1 → s.fb.msgType ≠ 2 →
    (s.r.isOpen = false → exec .queueMessage s = .next (saying [.log .queueWhileClosed] s)) ∧
    (s.r.isOpen = true → (∀ n, s.params.queueCapacity = some n → s.r.queue.length < n) →
      exec .queueMessage s = .next (afterDrain { s with r := { s.r with queue := s.r.queue ++ [s.fb] } }))

/-- 43_reliability_commands.md section 5, 93_implementation_defined.md U6 and U7, 60_exceptions.md section 1: exactly these events
have no step: committing a host-built Ack or Nack, and queueing on a full queue. Everything else completes, in every state.
That the model refuses them is the spec's own decision D15 and U6. -/
def Obligations.OnlyReservedCommitsAreRefused : Prop :=
  ∀ (i : Instr) (s : State),
    let hostReply := (i = .sendMessage ∨ i = .queueMessage) ∧ (s.fb.msgType = 1 ∨ s.fb.msgType = 2)
    let overflow := i = .queueMessage ∧ s.r.isOpen = true ∧ ∃ n, s.params.queueCapacity = some n ∧ n ≤ s.r.queue.length
    (hostReply → exec i s = .refused .hostBuiltReply) ∧
    (¬ hostReply → overflow → exec i s = .refused .queueOverflow) ∧
    (¬ hostReply → ¬ overflow → ∃ t, exec i s = .next t)

/-- 70_reset_and_hazards.md section 1 (RESET): every element at the value of 10_state.md section 12, no output; the registers left
unspecified there hold some value `d`. The reset event and its values are the spec's own decisions D8 and D36. That RESET keeps the
outputs so far, the waiting inputs and the DOM port, and counts its draws in `resetDraws`, is the model's choice (log entries 6,
11 and 12). -/
def Obligations.ResetEventRestoresResetValues : Prop :=
  ∀ s : State, ∃ d : ResetDraw,
    exec .reset s =
      .next { s with
        crc := { acc := d.crcAcc }
        fb := { msgType := 0, payload := [], repeatable := false, timeoutMs := 500 }
        p := {
          state := .idle, crc := d.parserCrc, msgType := d.parserMsgType, tid := d.parserTid,
          length := d.parserLength, count := 0, payload := [], rxCrc := d.parserRxCrc, deadlineArmed := false }
        r := {
          isOpen := false, replyGranted := false, nextTid := s.params.firstTid, pending := none, queue := [],
          replyTimerArmed := false, replyTimerMs := d.replyTimerMs }
        resetDraws := s.resetDraws + 1 }

/-- 10_state.md section 12: what the machine holds after reset, of the elements for which the table gives a value (the spec's
own decision D8; the first transaction id is the parameter, whatever it is). -/
def Obligations.ResetStateHasTheSpecifiedValues : Prop :=
  State.reset.fb = ⟨0, [], false, 500⟩ ∧
  State.reset.p.state = .idle ∧ State.reset.p.count = 0 ∧ State.reset.p.payload = [] ∧
  State.reset.p.deadlineArmed = false ∧ State.reset.r.isOpen = false ∧ State.reset.r.replyGranted = false ∧
  State.reset.r.nextTid = State.reset.params.firstTid ∧ State.reset.r.pending = none ∧ State.reset.r.queue = [] ∧
  State.reset.r.replyTimerArmed = false

/-! ## The whole machine -/

/-- 10_state.md section 11: the invariants, with the model's addition to item 5, hold after reset. -/
def Obligations.InvariantsHoldAtReset : Prop := State.reset.Inv

/-- 10_state.md section 11: every step keeps them, and with them the model's own addition to item 5, that no payload byte is
counted before the length is known (`State.Inv`). The spec derives the items (R40). -/
def Obligations.EveryStepKeepsInvariants : Prop :=
  ∀ s t : State, s.Inv → step s = .next t → t.Inv

/-- 43_reliability_commands.md section 3, 95_test_vectors.md S4 row 6: while the gate is false only Acks and Nacks are
transmitted, by any instruction but the one that opens the gate. -/
def Obligations.ClosedGateTransmitsOnlyReplies : Prop :=
  ∀ (i : Instr) (s t : State), s.Inv → s.r.replyGranted = false → i ≠ .setReplyGranted true → exec i s = .next t →
    ∃ outs, t.out = s.out ++ outs ∧
      ∀ bytes, .tx bytes ∈ outs → ∃ tid, bytes = ackBytes tid ∨ ∃ reason, bytes = nackBytes tid reason

/-- 44_reliability_dispatch.md section 5: an event other than RESET that ends the Pending Exchange reports it, in the step that
ends it; until then the exchange keeps its frame, id and attributes and only its retry count moves. -/
def Obligations.EndedExchangeIsAlwaysReported : Prop :=
  ∀ (i : Instr) (s t : State) (x : Pending), i.isEvent = true → i ≠ .reset → s.r.pending = some x → exec i s = .next t →
    (∃ k, t.r.pending = some { x with retryCount := k }) ∨
    ∃ outs success, t.out = s.out ++ outs ∧ .messageCompleted x.msgType x.tid success ∈ outs

/-- 20_memory.md section 5 (item 2): outputs are only ever added at the end; 10_state.md section 10 (parameters are not state):
no instruction writes a parameter. That the outputs are one list which no instruction, RESET included, cuts back, and that the
environment's waiting inputs are a list which `step` alone consumes and no instruction touches, are the model's choices (log
entries 1, 6 and 12). -/
def Obligations.OutputsOnlyGrowAndParametersStay : Prop :=
  ∀ (i : Instr) (s t : State), exec i s = .next t →
    (∃ outs, t.out = s.out ++ outs) ∧ t.params = s.params ∧ t.inputs = s.inputs

/-- 70_reset_and_hazards.md section 3 (CRC command port): no instruction but the CRC events and RESET reads or writes `crc.acc`.
That the three accumulators are independent is the spec's own decision D6. -/
def Obligations.OtherUnitsIgnoreTheCrcPort : Prop :=
  ∀ (i : Instr) (s t : State) (a : U16), i ≠ .reset → i ≠ .crcInit → (∀ b, i ≠ .crcUpdate b) → i ≠ .crcValue →
    exec i s = .next t →
    t.crc = s.crc ∧ exec i { s with crc := { acc := a } } = .next { t with crc := { acc := a } }

/-- 20_memory.md section 9 (copy semantics), 10_state.md section 3: only FB_NEW, the appends and RESET write the build
register. -/
def Obligations.OnlyBuilderEventsWriteTheBuilder : Prop :=
  ∀ (i : Instr) (s t : State), i ≠ .reset → (∀ ty r m, i ≠ .fbNew ty r m) → (∀ v, i ≠ .fbAppendU8 v) →
    (∀ v, i ≠ .fbAppendU16 v) → (∀ v, i ≠ .fbAppendU32 v) → (∀ u, i ≠ .fbAppendRaw u) →
    exec i s = .next t → t.fb = s.fb

/-- 10_state.md section 3 (transaction id counter): an event leaves the counter or advances it by one, modulo 256; RESET alone
sets it. -/
def Obligations.EventAdvancesTidByAtMostOne : Prop :=
  ∀ (i : Instr) (s t : State), i.isEvent = true → i ≠ .reset → exec i s = .next t →
    t.r.nextTid = s.r.nextTid ∨ t.r.nextTid = s.r.nextTid + 1

/-! ## Decoding and stepping -/

/-- 00_scope.md section 5 (Step), 60_exceptions.md section 7: a step consumes one instruction of the oldest input word, as a rule
the whole word, and executes it; what stands after it in the word comes next. A reserved event word is refused (30_encoding.md
section 4, log entry 17). With no input, or no whole event, only what waits at the input changes: that, and how words are joined
and split, is the model's choice (log entries 1 and 23). -/
def Obligations.StepRunsTheDecodedWord : Prop :=
  (∀ s : State, s.inputs = [] → step s = .next s) ∧
  (∀ (s : State) (w : InputWord) (rest : List InputWord) (i : Instr), s.inputs = w :: rest → decodeInput w = .ok i →
    step s = exec i { s with inputs := rest }) ∧
  (∀ (s : State) (w : InputWord) (rest : List InputWord) (i : Instr) (left : List Byte), s.inputs = w :: rest →
    decodeNext w = .ok (i, left) → step s = exec i { s with inputs := unread w left ++ rest }) ∧
  (∀ (s : State) (w : InputWord) (rest : List InputWord), s.inputs = w :: rest →
    decodeNext w = .error .truncated → step s = .next { s with inputs := awaitRest w rest }) ∧
  (∀ (s : State) (w : InputWord) (rest : List InputWord) (e : DecodeError), s.inputs = w :: rest →
    decodeNext w = .error e → e ≠ .truncated → step s = .refused (.reservedWord e))

/-- 30_encoding.md sections 1, 3 and 6: decoding the encoding of a well-formed instruction gives it back, whatever bytes
follow. -/
def Obligations.DecodeInvertsEncode : Prop :=
  ∀ (i : Instr) (rest : List Byte), i.wellFormed = true →
    decode (encode i ++ rest) = .ok (i, rest) ∧ decodeInput (inputWordOf i) = .ok i

/-- 30_encoding.md sections 1, 3 and 4: every word the decoder reads is the encoding of the well-formed instruction it answers, so
that each word has one meaning and no bit of it is dropped. -/
def Obligations.EncodeInvertsDecode : Prop :=
  ∀ (bytes rest : List Byte) (i : Instr), decode bytes = .ok (i, rest) → i.wellFormed = true ∧ bytes = encode i ++ rest

/-- 30_encoding.md section 4 (event ports), 93_implementation_defined.md U1 and U2: an event word with any other opcode, and the
reserved operand values, are no instruction. -/
def Obligations.ReservedEventWordsAreRejected : Prop :=
  (∀ (op : Byte) (rest : List Byte),
    op ∉ ([0x00, 0x01, 0x02, 0x03, 0x10, 0x11, 0x12, 0x20, 0x21, 0x22, 0x23, 0x24, 0x30, 0x31, 0x32, 0x40, 0x41, 0x42] :
      List Byte) →
    decodeEvent (op :: rest) = .error .reservedOpcode) ∧
  (∀ (a : Byte) (rest : List Byte), 1 < a.toNat → decodeEvent (0x03 :: a :: rest) = .error .reservedOperand) ∧
  (∀ (t f l h : Byte) (rest : List Byte), 1 < f.toNat →
    decodeEvent (0x20 :: t :: f :: l :: h :: rest) = .error .reservedOperand) ∧
  (∀ (l h : Byte) (rest : List Byte), 512 < (u16Of l h).toNat →
    decodeEvent (0x24 :: l :: h :: rest) = .error .reservedOperand)

/-- 30_encoding.md sections 1 and 3: words written out from the encodings decode to the instructions they stand for. -/
def Obligations.WrittenOutWordsDecode : Prop :=
  decodeInput (.event [0x03, 0x01]) = .ok (.setReplyGranted true) ∧
  decodeInput (.event [0x11, 0x5A]) = .ok (.crcUpdate 0x5A) ∧
  decodeInput (.event [0x20, 0x04, 0x00, 0xE8, 0x03]) = .ok (.fbNew 4 false 1000) ∧
  decodeInput (.event [0x22, 0x34, 0x12]) = .ok (.fbAppendU16 0x1234) ∧
  decodeInput (.event [0x31, 0x00]) = .ok (.sendRequest 0) ∧
  decodeInput (.event [0x40, 0xE9]) = .ok (.rxByte 0xE9) ∧
  decodeInput (.wire [0x5A, 0xA5, 0x01, 0x02, 0x00, 0x00, 0x61, 0xE9]) = .ok (.frameAck 2 [] 0xE961) ∧
  decodeInput (.wire [0x5A, 0xA5, 0x03, 0x07, 0x01, 0x00, 0x00, 0xF1, 0xC2]) = .ok (.frameRequest 7 [0] 0xC2F1)

/-! ## Statuses and the receive stream -/

/-- 30_encoding.md section 3 and 60_exceptions.md section 2 (the table of statuses): the five numbers, which are the spec's own
decision D11; a send returns one of the first four, an append the first or the last, and every other instruction none. -/
def Obligations.StatusesHaveTheirCodesAndCommands : Prop :=
  [Status.ok, .notOpen, .msgInProgress, .gateClosed, .buildOverflow].map Status.code = [0, 1, 2, 3, 4] ∧
  ∀ (i : Instr) (s t : State) (outs : List Output) (status : Status),
    exec i s = .next t → t.out = s.out ++ outs → .ret status ∈ outs →
    ((i = .sendMessage ∨ ∃ q, i = .sendRequest q) ∧ status.code ≤ 3) ∨
    (((∃ v, i = .fbAppendU8 v) ∨ (∃ v, i = .fbAppendU16 v) ∨ (∃ v, i = .fbAppendU32 v) ∨ ∃ u, i = .fbAppendRaw u) ∧
      (status.code = 0 ∨ status.code = 4))

/-- 30_encoding.md section 4 (on the wire), 60_exceptions.md section 2 (class (a)): whatever bytes arrive on the receive stream, a
step completes: it gives a first part of them, in order and not empty, to the parser, and leaves the rest for the next step. That
it is a whole frame where they begin with one, and else one byte, is the model's choice (log entry 23). -/
def Obligations.WireBytesAlwaysReachTheParser : Prop :=
  ∀ (s : State) (bytes : List Byte) (rest : List InputWord), s.inputs = .wire bytes :: rest → bytes ≠ [] →
    ∃ part left t, bytes = part ++ left ∧ part ≠ [] ∧ step s = .next t ∧
      RunsTo (part.map .rxByte) { s with inputs := unread (.wire bytes) left ++ rest } t
end

