-- ==== Sys2Proof/Laws/State.lean ====
section
/-! SUPPORT. One lemma for each update of State and each of its fields, true by rfl: no later proof unfolds a record update. -/

namespace Sys2Proof.Machine

variable (s : State)

@[simp] theorem emit_crc (o : Output) : (emit o s).crc = s.crc := rfl
@[simp] theorem emit_fb (o : Output) : (emit o s).fb = s.fb := rfl
@[simp] theorem emit_p (o : Output) : (emit o s).p = s.p := rfl
@[simp] theorem emit_r (o : Output) : (emit o s).r = s.r := rfl
@[simp] theorem emit_params (o : Output) : (emit o s).params = s.params := rfl
@[simp] theorem emit_inputs (o : Output) : (emit o s).inputs = s.inputs := rfl
@[simp] theorem emit_dom (o : Output) : (emit o s).dom = s.dom := rfl
@[simp] theorem emit_resetDraws (o : Output) : (emit o s).resetDraws = s.resetDraws := rfl
@[simp] theorem emit_out (o : Output) : (emit o s).out = s.out ++ [o] := rfl

@[simp] theorem setAcc_crc (v : U16) : (setAcc v s).crc = { acc := v } := rfl
@[simp] theorem setAcc_fb (v : U16) : (setAcc v s).fb = s.fb := rfl
@[simp] theorem setAcc_p (v : U16) : (setAcc v s).p = s.p := rfl
@[simp] theorem setAcc_r (v : U16) : (setAcc v s).r = s.r := rfl
@[simp] theorem setAcc_params (v : U16) : (setAcc v s).params = s.params := rfl
@[simp] theorem setAcc_inputs (v : U16) : (setAcc v s).inputs = s.inputs := rfl
@[simp] theorem setAcc_dom (v : U16) : (setAcc v s).dom = s.dom := rfl
@[simp] theorem setAcc_resetDraws (v : U16) : (setAcc v s).resetDraws = s.resetDraws := rfl
@[simp] theorem setAcc_out (v : U16) : (setAcc v s).out = s.out := rfl

@[simp] theorem setBuilder_crc (d : Descriptor) : (setBuilder d s).crc = s.crc := rfl
@[simp] theorem setBuilder_fb (d : Descriptor) : (setBuilder d s).fb = d := rfl
@[simp] theorem setBuilder_p (d : Descriptor) : (setBuilder d s).p = s.p := rfl
@[simp] theorem setBuilder_r (d : Descriptor) : (setBuilder d s).r = s.r := rfl
@[simp] theorem setBuilder_params (d : Descriptor) : (setBuilder d s).params = s.params := rfl
@[simp] theorem setBuilder_inputs (d : Descriptor) : (setBuilder d s).inputs = s.inputs := rfl
@[simp] theorem setBuilder_dom (d : Descriptor) : (setBuilder d s).dom = s.dom := rfl
@[simp] theorem setBuilder_resetDraws (d : Descriptor) : (setBuilder d s).resetDraws = s.resetDraws := rfl
@[simp] theorem setBuilder_out (d : Descriptor) : (setBuilder d s).out = s.out := rfl

@[simp] theorem setPending_crc (x : Option Pending) : (setPending x s).crc = s.crc := rfl
@[simp] theorem setPending_fb (x : Option Pending) : (setPending x s).fb = s.fb := rfl
@[simp] theorem setPending_p (x : Option Pending) : (setPending x s).p = s.p := rfl
@[simp] theorem setPending_r (x : Option Pending) : (setPending x s).r = { s.r with pending := x } := rfl
@[simp] theorem setPending_params (x : Option Pending) : (setPending x s).params = s.params := rfl
@[simp] theorem setPending_inputs (x : Option Pending) : (setPending x s).inputs = s.inputs := rfl
@[simp] theorem setPending_dom (x : Option Pending) : (setPending x s).dom = s.dom := rfl
@[simp] theorem setPending_resetDraws (x : Option Pending) : (setPending x s).resetDraws = s.resetDraws := rfl
@[simp] theorem setPending_out (x : Option Pending) : (setPending x s).out = s.out := rfl

@[simp] theorem setQueue_crc (q : List Descriptor) : (setQueue q s).crc = s.crc := rfl
@[simp] theorem setQueue_fb (q : List Descriptor) : (setQueue q s).fb = s.fb := rfl
@[simp] theorem setQueue_p (q : List Descriptor) : (setQueue q s).p = s.p := rfl
@[simp] theorem setQueue_r (q : List Descriptor) : (setQueue q s).r = { s.r with queue := q } := rfl
@[simp] theorem setQueue_params (q : List Descriptor) : (setQueue q s).params = s.params := rfl
@[simp] theorem setQueue_inputs (q : List Descriptor) : (setQueue q s).inputs = s.inputs := rfl
@[simp] theorem setQueue_dom (q : List Descriptor) : (setQueue q s).dom = s.dom := rfl
@[simp] theorem setQueue_resetDraws (q : List Descriptor) : (setQueue q s).resetDraws = s.resetDraws := rfl
@[simp] theorem setQueue_out (q : List Descriptor) : (setQueue q s).out = s.out := rfl

@[simp] theorem setNextTid_crc (t : Byte) : (setNextTid t s).crc = s.crc := rfl
@[simp] theorem setNextTid_fb (t : Byte) : (setNextTid t s).fb = s.fb := rfl
@[simp] theorem setNextTid_p (t : Byte) : (setNextTid t s).p = s.p := rfl
@[simp] theorem setNextTid_r (t : Byte) : (setNextTid t s).r = { s.r with nextTid := t } := rfl
@[simp] theorem setNextTid_params (t : Byte) : (setNextTid t s).params = s.params := rfl
@[simp] theorem setNextTid_inputs (t : Byte) : (setNextTid t s).inputs = s.inputs := rfl
@[simp] theorem setNextTid_dom (t : Byte) : (setNextTid t s).dom = s.dom := rfl
@[simp] theorem setNextTid_resetDraws (t : Byte) : (setNextTid t s).resetDraws = s.resetDraws := rfl
@[simp] theorem setNextTid_out (t : Byte) : (setNextTid t s).out = s.out := rfl

@[simp] theorem setParser_crc (q : Parser) : (setParser q s).crc = s.crc := rfl
@[simp] theorem setParser_fb (q : Parser) : (setParser q s).fb = s.fb := rfl
@[simp] theorem setParser_p (q : Parser) : (setParser q s).p = q := rfl
@[simp] theorem setParser_r (q : Parser) : (setParser q s).r = s.r := rfl
@[simp] theorem setParser_params (q : Parser) : (setParser q s).params = s.params := rfl
@[simp] theorem setParser_inputs (q : Parser) : (setParser q s).inputs = s.inputs := rfl
@[simp] theorem setParser_dom (q : Parser) : (setParser q s).dom = s.dom := rfl
@[simp] theorem setParser_resetDraws (q : Parser) : (setParser q s).resetDraws = s.resetDraws := rfl
@[simp] theorem setParser_out (q : Parser) : (setParser q s).out = s.out := rfl

@[simp] theorem gotoState_crc (q : ParserState) : (gotoState q s).crc = s.crc := rfl
@[simp] theorem gotoState_fb (q : ParserState) : (gotoState q s).fb = s.fb := rfl
@[simp] theorem gotoState_p (q : ParserState) : (gotoState q s).p = { s.p with state := q } := rfl
@[simp] theorem gotoState_r (q : ParserState) : (gotoState q s).r = s.r := rfl
@[simp] theorem gotoState_params (q : ParserState) : (gotoState q s).params = s.params := rfl
@[simp] theorem gotoState_inputs (q : ParserState) : (gotoState q s).inputs = s.inputs := rfl
@[simp] theorem gotoState_dom (q : ParserState) : (gotoState q s).dom = s.dom := rfl
@[simp] theorem gotoState_resetDraws (q : ParserState) : (gotoState q s).resetDraws = s.resetDraws := rfl
@[simp] theorem gotoState_out (q : ParserState) : (gotoState q s).out = s.out := rfl

@[simp] theorem armFrame_crc : (armFrame s).crc = s.crc := rfl
@[simp] theorem armFrame_fb : (armFrame s).fb = s.fb := rfl
@[simp] theorem armFrame_p : (armFrame s).p = { s.p with deadlineArmed := true } := rfl
@[simp] theorem armFrame_r : (armFrame s).r = s.r := rfl
@[simp] theorem armFrame_params : (armFrame s).params = s.params := rfl
@[simp] theorem armFrame_inputs : (armFrame s).inputs = s.inputs := rfl
@[simp] theorem armFrame_dom : (armFrame s).dom = s.dom := rfl
@[simp] theorem armFrame_resetDraws : (armFrame s).resetDraws = s.resetDraws := rfl
@[simp] theorem armFrame_out : (armFrame s).out = s.out := rfl

@[simp] theorem cancelFrame_crc : (cancelFrame s).crc = s.crc := rfl
@[simp] theorem cancelFrame_fb : (cancelFrame s).fb = s.fb := rfl
@[simp] theorem cancelFrame_p : (cancelFrame s).p = { s.p with deadlineArmed := false } := rfl
@[simp] theorem cancelFrame_r : (cancelFrame s).r = s.r := rfl
@[simp] theorem cancelFrame_params : (cancelFrame s).params = s.params := rfl
@[simp] theorem cancelFrame_inputs : (cancelFrame s).inputs = s.inputs := rfl
@[simp] theorem cancelFrame_dom : (cancelFrame s).dom = s.dom := rfl
@[simp] theorem cancelFrame_resetDraws : (cancelFrame s).resetDraws = s.resetDraws := rfl
@[simp] theorem cancelFrame_out : (cancelFrame s).out = s.out := rfl

@[simp] theorem armReply_crc (ms : Nat) : (armReply ms s).crc = s.crc := rfl
@[simp] theorem armReply_fb (ms : Nat) : (armReply ms s).fb = s.fb := rfl
@[simp] theorem armReply_p (ms : Nat) : (armReply ms s).p = s.p := rfl
@[simp] theorem armReply_r (ms : Nat) : (armReply ms s).r = { s.r with replyTimerArmed := true, replyTimerMs := ms } := rfl
@[simp] theorem armReply_params (ms : Nat) : (armReply ms s).params = s.params := rfl
@[simp] theorem armReply_inputs (ms : Nat) : (armReply ms s).inputs = s.inputs := rfl
@[simp] theorem armReply_dom (ms : Nat) : (armReply ms s).dom = s.dom := rfl
@[simp] theorem armReply_resetDraws (ms : Nat) : (armReply ms s).resetDraws = s.resetDraws := rfl
@[simp] theorem armReply_out (ms : Nat) : (armReply ms s).out = s.out := rfl

@[simp] theorem cancelReply_crc : (cancelReply s).crc = s.crc := rfl
@[simp] theorem cancelReply_fb : (cancelReply s).fb = s.fb := rfl
@[simp] theorem cancelReply_p : (cancelReply s).p = s.p := rfl
@[simp] theorem cancelReply_r : (cancelReply s).r = { s.r with replyTimerArmed := false } := rfl
@[simp] theorem cancelReply_params : (cancelReply s).params = s.params := rfl
@[simp] theorem cancelReply_inputs : (cancelReply s).inputs = s.inputs := rfl
@[simp] theorem cancelReply_dom : (cancelReply s).dom = s.dom := rfl
@[simp] theorem cancelReply_resetDraws : (cancelReply s).resetDraws = s.resetDraws := rfl
@[simp] theorem cancelReply_out : (cancelReply s).out = s.out := rfl

@[simp] theorem setGate_crc (v : Bool) : (setGate v s).crc = s.crc := rfl
@[simp] theorem setGate_fb (v : Bool) : (setGate v s).fb = s.fb := rfl
@[simp] theorem setGate_p (v : Bool) : (setGate v s).p = s.p := rfl
@[simp] theorem setGate_r (v : Bool) : (setGate v s).r = { s.r with replyGranted := v } := rfl
@[simp] theorem setGate_params (v : Bool) : (setGate v s).params = s.params := rfl
@[simp] theorem setGate_inputs (v : Bool) : (setGate v s).inputs = s.inputs := rfl
@[simp] theorem setGate_dom (v : Bool) : (setGate v s).dom = s.dom := rfl
@[simp] theorem setGate_resetDraws (v : Bool) : (setGate v s).resetDraws = s.resetDraws := rfl
@[simp] theorem setGate_out (v : Bool) : (setGate v s).out = s.out := rfl

@[simp] theorem setOpen_crc (v : Bool) : (setOpen v s).crc = s.crc := rfl
@[simp] theorem setOpen_fb (v : Bool) : (setOpen v s).fb = s.fb := rfl
@[simp] theorem setOpen_p (v : Bool) : (setOpen v s).p = s.p := rfl
@[simp] theorem setOpen_r (v : Bool) : (setOpen v s).r = { s.r with isOpen := v } := rfl
@[simp] theorem setOpen_params (v : Bool) : (setOpen v s).params = s.params := rfl
@[simp] theorem setOpen_inputs (v : Bool) : (setOpen v s).inputs = s.inputs := rfl
@[simp] theorem setOpen_dom (v : Bool) : (setOpen v s).dom = s.dom := rfl
@[simp] theorem setOpen_resetDraws (v : Bool) : (setOpen v s).resetDraws = s.resetDraws := rfl
@[simp] theorem setOpen_out (v : Bool) : (setOpen v s).out = s.out := rfl

@[simp] theorem recordDomainCall_crc (f : Frame) : (recordDomainCall f s).crc = s.crc := rfl
@[simp] theorem recordDomainCall_fb (f : Frame) : (recordDomainCall f s).fb = s.fb := rfl
@[simp] theorem recordDomainCall_p (f : Frame) : (recordDomainCall f s).p = s.p := rfl
@[simp] theorem recordDomainCall_r (f : Frame) : (recordDomainCall f s).r = s.r := rfl
@[simp] theorem recordDomainCall_params (f : Frame) : (recordDomainCall f s).params = s.params := rfl
@[simp] theorem recordDomainCall_inputs (f : Frame) : (recordDomainCall f s).inputs = s.inputs := rfl
@[simp] theorem recordDomainCall_dom (f : Frame) : (recordDomainCall f s).dom = { verdicts := s.dom.verdicts.tail, calls := s.dom.calls ++ [f] } := rfl
@[simp] theorem recordDomainCall_resetDraws (f : Frame) : (recordDomainCall f s).resetDraws = s.resetDraws := rfl
@[simp] theorem recordDomainCall_out (f : Frame) : (recordDomainCall f s).out = s.out := rfl

@[simp] theorem placeWord_crc (w : InputWord) : (placeWord w s).crc = s.crc := rfl
@[simp] theorem placeWord_fb (w : InputWord) : (placeWord w s).fb = s.fb := rfl
@[simp] theorem placeWord_p (w : InputWord) : (placeWord w s).p = s.p := rfl
@[simp] theorem placeWord_r (w : InputWord) : (placeWord w s).r = s.r := rfl
@[simp] theorem placeWord_params (w : InputWord) : (placeWord w s).params = s.params := rfl
@[simp] theorem placeWord_inputs (w : InputWord) : (placeWord w s).inputs = w :: s.inputs := rfl
@[simp] theorem placeWord_dom (w : InputWord) : (placeWord w s).dom = s.dom := rfl
@[simp] theorem placeWord_resetDraws (w : InputWord) : (placeWord w s).resetDraws = s.resetDraws := rfl
@[simp] theorem placeWord_out (w : InputWord) : (placeWord w s).out = s.out := rfl

@[simp] theorem emitLog_eq (reason : LogReason) : emitLog reason s = emit (.log reason) s := rfl
@[simp] theorem emitRet_eq (status : Status) : emitRet status s = emit (.ret status) s := rfl
@[simp] theorem takeFb_eq : takeFb s = s.fb := rfl
@[simp] theorem advanceTid_eq : advanceTid s = setNextTid (s.r.nextTid + 1) s := rfl
@[simp] theorem releaseSlot_eq : releaseSlot s = setPending none (cancelReply s) := rfl

end Sys2Proof.Machine
end

