-- ==== Sys2Proof/Laws/SendPath.lean ====
section
/-! SUPPORT. What the procedures of the send path, the retry machine and the frame builder can do, each said once as the state
that Safety.lean writes out. -/

namespace Sys2Proof.Machine

theorem isReplyType_iff (t : Byte) : isReplyType t = true ↔ t = 1 ∨ t = 2 := by
  simp [isReplyType, Config.msgAck, Config.msgNack]

theorem gatePasses_iff (t : Byte) (s : State) :
    gatePasses t s = true ↔ s.r.replyGranted = true ∨ t = 1 ∨ t = 2 := by
  simp [gatePasses, isReplyType_iff]

theorem retryAllowed_iff (x : Pending) : retryAllowed x = true ↔ x.repeatable = true ∧ x.retryCount < 3 := by
  simp only [retryAllowed, Bool.and_eq_true, decide_eq_true_eq]
  exact Iff.rfl

theorem canDrain_iff (s : State) :
    canDrain s = true ↔ s.r.isOpen = true ∧ s.r.pending = none ∧ s.r.replyGranted = true := by
  simp [canDrain, and_assoc]

/-- `sendAttempt` transmits and arms the timer, or is abandoned and changes nothing (R188). -/
theorem sendAttempt_eq (x : Pending) (s : State) :
    sendAttempt x s =
      if s.r.replyGranted = true ∨ x.msgType = 1 ∨ x.msgType = 2 then
        some { s with
          r := { s.r with replyTimerArmed := true, replyTimerMs := x.timeoutMs }
          out := s.out ++ [.tx (serialize x.msgType x.tid x.payload)] }
      else none := by
  simp only [sendAttempt, gatePasses_iff]
  rfl

/-- `drain` (R190). -/
theorem drain_eq (s : State) : drain s = afterDrain s := by
  unfold drain afterDrain
  cases h : s.r.queue with
  | nil => rfl
  | cons d rest => simp only [canDrain_iff]; rfl

/-- `failExchange` (R224). -/
theorem failExchange_eq (x : Pending) (s : State) :
    failExchange x s = afterExchange [.messageCompleted x.msgType x.tid false] s := by
  simp only [failExchange, drain_eq]; rfl

/-- `retryOrFail` (R228). -/
theorem retryOrFail_eq (x : Pending) (s : State) : retryOrFail x s = afterRetry x s := by
  unfold retryOrFail afterRetry
  by_cases h : retryAllowed x = true
  · have h' := (retryAllowed_iff x).1 h
    by_cases g : s.r.replyGranted = true ∨ x.msgType = 1 ∨ x.msgType = 2
    · rw [if_pos h, if_pos ⟨h'.1, h'.2, g⟩]
      simp only [sendAttempt_eq, countRetry, setPending]
      rw [if_pos g]
    · rw [if_pos h, if_neg (fun c => g c.2.2)]
      simp only [sendAttempt_eq, countRetry, setPending]
      rw [if_neg g]
      exact failExchange_eq _ _
  · have h' : ¬ (x.repeatable = true ∧ x.retryCount < 3 ∧
        (s.r.replyGranted = true ∨ x.msgType = 1 ∨ x.msgType = 2)) := by
      rintro ⟨a, b, -⟩; exact h ((retryAllowed_iff x).2 ⟨a, b⟩)
    rw [if_neg h, if_neg h', failExchange_eq]

/-- What a gate-rejected direct send leaves of an empty slot (R187). -/
theorem rejectAtGate_eq (d : Descriptor) (s : State) (h : s.r.pending = none) :
    rejectAtGate s.r.nextTid (createExchange d s) =
      { s with
        r := { s.r with
          nextTid := if s.params.tidConsumedOnGateReject = true then s.r.nextTid + 1 else s.r.nextTid }
        out := s.out ++ [.ret .gateClosed] } := by
  have e : s.r = { s.r with pending := none } := by rw [← h]
  cases c : s.params.tidConsumedOnGateReject
  · simp only [rejectAtGate, createExchange, advanceTid, setNextTid, setPending, emitRet, emit, c]
    rw [e]; rfl
  · simp only [rejectAtGate, createExchange, advanceTid, setNextTid, setPending, emitRet, emit, c]
    rw [e]; rfl

/-- `directSend` (R187). -/
theorem directSend_eq (d : Descriptor) (s : State) : directSend d s = afterDirectSend d s := by
  unfold directSend afterDirectSend
  cases ho : s.r.isOpen with
  | false => rfl
  | true =>
    cases hp : s.r.pending with
    | some x => rfl
    | none =>
      by_cases g : s.r.replyGranted = true ∨ d.msgType = 1 ∨ d.msgType = 2
      · have a : sendAttempt (exchangeOf d s.r.nextTid) (createExchange d s) =
            some (transmitExchange (exchangeOf d s.r.nextTid) (createExchange d s)) := by
          rw [sendAttempt_eq]; exact if_pos g
        simp only [a, if_pos g]
        simp [transmitExchange, createExchange, exchangeOf, setNextTid, setPending, armReply, emit]
      · have a : sendAttempt (exchangeOf d s.r.nextTid) (createExchange d s) = none := by
          rw [sendAttempt_eq]; exact if_neg g
        simp only [a, if_neg g]
        exact rejectAtGate_eq d s hp

/-- `fbAppend` (R139). -/
theorem fbAppend_eq (u : List Byte) (s : State) : fbAppend u s = afterAppend u s := by
  unfold fbAppend afterAppend
  by_cases h : s.fb.payload.length + u.length ≤ 512
  · simp [Config.maxPayload, Nat.not_lt.2 h, h, emit, setBuilder]
  · simp [Config.maxPayload, Nat.lt_of_not_le h, h, emit]

end Sys2Proof.Machine
end

