-- ==== Sys2Proof/Laws/Inbound.lean ====
section
/-! SUPPORT. What the inbound procedures can do (spec/44_reliability_dispatch.md), each said once. -/

namespace Sys2Proof.Machine

/-- The exchange a reply matches is the pending one, with that id (R222, R229). -/
theorem matchingExchange_eq_some (tid : Byte) (s : State) (x : Pending) :
    matchingExchange tid s = some x ↔ s.r.pending = some x ∧ x.tid = tid := by
  unfold matchingExchange
  cases s.r.pending with
  | none => simp
  | some y =>
    by_cases h : y.tid = tid
    · simp only [h, if_true, Option.some.injEq]
      constructor
      · rintro rfl; exact ⟨rfl, h⟩
      · rintro ⟨rfl, -⟩; rfl
    · simp only [h, if_false, Option.some.injEq]
      constructor
      · intro c; cases c
      · rintro ⟨rfl, c⟩; exact absurd c h

/-- No exchange matches: none is pending, or its id is another. -/
theorem matchingExchange_eq_none (tid : Byte) (s : State) :
    matchingExchange tid s = none ↔ ∀ x, s.r.pending = some x → x.tid ≠ tid := by
  rw [Option.eq_none_iff_forall_ne_some]
  constructor
  · intro h x hx ht
    exact h x ((matchingExchange_eq_some tid s x).2 ⟨hx, ht⟩)
  · intro h x hx
    obtain ⟨a, b⟩ := (matchingExchange_eq_some tid s x).1 hx
    exact h x a b

/-- A matched Ack (R222). -/
theorem onAck_matched (f : Frame) (s : State) (x : Pending) (h : matchingExchange f.tid s = some x) :
    onAck f s = afterExchange
      ((if x.msgType = 0 then [.statusAcknowledged] else []) ++ [.messageCompleted x.msgType x.tid true]) s := by
  simp only [onAck, h, drain_eq, afterExchange]
  congr 1
  unfold notifyStatus
  by_cases c : x.msgType = Config.msgStatus
  · rw [if_pos c, if_pos (show x.msgType = 0 from c)]
    simp [emit, setPending, cancelReply, releaseSlot]
  · rw [if_neg c, if_neg (show ¬ x.msgType = 0 from c)]
    rfl

/-- An unmatched Ack (R229). -/
theorem onAck_unmatched (f : Frame) (s : State) (h : matchingExchange f.tid s = none) :
    onAck f s = saying [.log .unmatchedReply] s := by
  simp only [onAck, h]; rfl

/-- A matched Nack (R223, R228). -/
theorem onNack_matched (f : Frame) (s : State) (x : Pending) (h : matchingExchange f.tid s = some x) :
    onNack f s = afterRetry x s := by
  simp only [onNack, h, retryOrFail_eq]
  rfl

/-- An unmatched Nack (R229). -/
theorem onNack_unmatched (f : Frame) (s : State) (h : matchingExchange f.tid s = none) :
    onNack f s = saying [.log .unmatchedReply] s := by
  simp only [onNack, h]; rfl

/-- A Status or domain frame is answered with the verdict the DOM port gives (R226). -/
theorem onDomain_eq (f : Frame) (s : State) : onDomain f s = answeredWith (domainVerdict f s) f s := by
  unfold onDomain
  cases h : domainVerdict f s <;> rfl

/-- The verdict is the host's next answer, where it has given one (log entry 13). -/
theorem domainVerdict_of_head (f : Frame) (s : State) (w : Verdict) (h : s.dom.verdicts.head? = some w) :
    domainVerdict f s = w := by
  unfold domainVerdict
  cases hv : s.dom.verdicts with
  | nil => rw [hv] at h; cases h
  | cons v vs => rw [hv] at h; simpa using h

/-- The case split of `dispatch` (R221). -/
theorem dispatch_cases (f : Frame) (s : State) :
    (f.msgType = 1 ∧ dispatch f s = onAck f s) ∨ (f.msgType = 2 ∧ dispatch f s = onNack f s) ∨
    (f.msgType = 3 ∧ dispatch f s = onRequest f s) ∨
    (f.msgType ≠ 1 ∧ f.msgType ≠ 2 ∧ f.msgType ≠ 3 ∧ dispatch f s = onDomain f s) := by
  unfold dispatch
  by_cases h1 : f.msgType = Config.msgAck
  · exact .inl ⟨h1, if_pos h1⟩
  · by_cases h2 : f.msgType = Config.msgNack
    · exact .inr (.inl ⟨h2, by rw [if_neg h1, if_pos h2]⟩)
    · by_cases h3 : f.msgType = Config.msgRequest
      · exact .inr (.inr (.inl ⟨h3, by rw [if_neg h1, if_neg h2, if_pos h3]⟩))
      · exact .inr (.inr (.inr ⟨h1, h2, h3, by rw [if_neg h1, if_neg h2, if_neg h3]⟩))

end Sys2Proof.Machine
end

