-- ==== Sys2Proof/Laws/ByteParser.lean ====
section
/-! SUPPORT. What one received byte, and a sequence of them, can do (spec/42_byte_stream_parser.md). -/

namespace Sys2Proof.Machine

/-- A closed channel ignores a byte (R151). -/
theorem rxByte_closed (b : Byte) (s : State) (h : s.r.isOpen = false) : rxByte b s = s := by
  simp [rxByte, h]

/-- An open channel takes it by parser state (R150). -/
theorem rxByte_open (b : Byte) (s : State) (h : s.r.isOpen = true) : rxByte b s = rxOpen b s := by
  simp [rxByte, h]

@[simp] theorem rxBytes_nil (s : State) : rxBytes [] s = s := rfl

@[simp] theorem rxBytes_cons (b : Byte) (u : List Byte) (s : State) : rxBytes (b :: u) s = rxBytes u (rxByte b s) := rfl

theorem rxBytes_append (u v : List Byte) (s : State) : rxBytes (u ++ v) s = rxBytes v (rxBytes u s) := by
  simp [rxBytes]

/-- A property that every received byte keeps is kept by any sequence of them. -/
theorem rxBytes_induction (P : State → Prop) (h : ∀ b s, P s → P (rxByte b s)) (u : List Byte) :
    ∀ s, P s → P (rxBytes u s) := by
  induction u with
  | nil => exact fun s hs => hs
  | cons b u ih => exact fun s hs => ih _ (h b s hs)

/-- The run of the RX_BYTE events of a byte sequence (30_encoding.md R101). -/
theorem runsTo_rxBytes (u : List Byte) : ∀ s, RunsTo (u.map .rxByte) s (rxBytes u s) := by
  induction u with
  | nil => exact fun s => rfl
  | cons b u ih => exact fun s => ⟨rxByte b s, rfl, ih _⟩

/-- Runs follow one another. -/
theorem RunsTo_append {is js : List Instr} : ∀ {s t u : State}, RunsTo is s t → RunsTo js t u → RunsTo (is ++ js) s u := by
  induction is with
  | nil => intro s t u h k; cases h; exact k
  | cons i is ih => rintro s t u ⟨v, hv, h⟩ k; exact ⟨v, hv, ih h k⟩

/-- Outside a dispatch a received byte changes the parser's registers and adds at most one log line; the dispatch is in the
state `Crc2` with the right CRC (R152 to R161). -/
theorem rxByte_cases (b : Byte) (s : State) :
    rxByte b s = s ∨ (∃ q, rxByte b s = { s with p := q }) ∨
    (∃ q reason, rxByte b s = { s with p := q, out := s.out ++ [.log reason] }) ∨
    (s.r.isOpen = true ∧ s.p.state = .crc2 ∧ ∃ q : Parser, q.state = .idle ∧ q.deadlineArmed = false ∧
      rxByte b s = dispatch (receivedFrame s.p) { s with p := q }) := by
  cases ho : s.r.isOpen with
  | false => exact .inl (rxByte_closed b s ho)
  | true =>
    rw [rxByte_open b s ho]
    unfold rxOpen
    cases hs : s.p.state with
    | idle =>
      simp only [rxIdle]; split
      · exact .inr (.inl ⟨_, rfl⟩)
      · exact .inl rfl
    | preamble2 =>
      simp only [rxPreamble2]; split
      · exact .inr (.inl ⟨_, rfl⟩)
      · exact .inr (.inr (.inl ⟨_, _, rfl⟩))
    | msgType => exact .inr (.inl ⟨_, rfl⟩)
    | transactionId => exact .inr (.inl ⟨_, rfl⟩)
    | length1 => exact .inr (.inl ⟨_, rfl⟩)
    | length2 =>
      simp only [rxLength2]; split
      · exact .inr (.inr (.inl ⟨_, _, rfl⟩))
      · split
        · exact .inr (.inl ⟨_, rfl⟩)
        · exact .inr (.inl ⟨_, rfl⟩)
    | payload =>
      simp only [rxPayload]; split
      · exact .inr (.inl ⟨_, rfl⟩)
      · exact .inr (.inl ⟨_, rfl⟩)
    | crc1 => exact .inr (.inl ⟨_, rfl⟩)
    | crc2 =>
      simp only [rxCrc2]; split
      · exact .inr (.inr (.inr ⟨trivial, trivial, _, rfl, rfl, rfl⟩))
      · exact .inr (.inr (.inl ⟨_, _, rfl⟩))

end Sys2Proof.Machine
end

