-- ==== Sys2Proof/Laws/Crc.lean ====
section
/-! SUPPORT. Folding bytes into a CRC accumulator (40_crc_engine.md R117). -/

namespace Sys2Proof.Machine

@[simp] theorem crcFold_nil (a : U16) : crcFold a [] = a := rfl

@[simp] theorem crcFold_cons (a : U16) (b : Byte) (u : List Byte) : crcFold a (b :: u) = crcFold (crcStep a b) u := rfl

theorem crcFold_append (a : U16) (u v : List Byte) : crcFold a (u ++ v) = crcFold (crcFold a u) v := by
  simp [crcFold]

/-- One more byte is one more step. -/
theorem crcOf_snoc (u : List Byte) (b : Byte) : crcOf (u ++ [b]) = crcStep (crcOf u) b := by
  simp [crcOf, crcFold]

/-- `Serialize` of a payload that fits, as the bytes of a frame with the right CRC field. -/
theorem serialize_eq (t i : Byte) (payload : List Byte) (h : payload.length ≤ 512) :
    serialize t i payload =
      frameBytes t i payload (crcOf (headerBytes t i (BitVec.ofNat 16 payload.length) ++ payload)) := by
  simp [serialize, Config.maxPayload, h]

end Sys2Proof.Machine
end

