-- ==== Sys2Proof/Laws/Operands.lean ====
section
/-! SUPPORT. Byte order: assembling and taking apart little-endian quantities are inverse (20_memory.md R60, 30_encoding.md R81). -/

namespace Sys2Proof.Machine

@[simp] theorem u16Of_low_high (v : U16) : u16Of (lowByte v) (highByte v) = v := by
  apply BitVec.eq_of_getLsbD_eq
  intro i hi
  simp only [u16Of, lowByte, highByte, BitVec.getLsbD_or, BitVec.getLsbD_setWidth, BitVec.getLsbD_shiftLeft,
    BitVec.getLsbD_extractLsb']
  by_cases h : i < 8
  · simp [h, hi]
  · have : i - 8 < 8 := by omega
    have h' : 8 + (i - 8) = i := by omega
    simp [h, hi, this, h']
    omega

@[simp] theorem lowByte_u16Of (l h : Byte) : lowByte (u16Of l h) = l := by
  apply BitVec.eq_of_getLsbD_eq
  intro i hi
  have : i < 16 := by omega
  simp [u16Of, lowByte, hi, this]

@[simp] theorem highByte_u16Of (l h : Byte) : highByte (u16Of l h) = h := by
  apply BitVec.eq_of_getLsbD_eq
  intro i hi
  have h1 : 8 + i < 16 := by omega
  have h2 : ¬ 8 + i < 8 := by omega
  simp [u16Of, highByte, hi, h1]

@[simp] theorem u32Of_bytes (v : U32) :
    u32Of (v.extractLsb' 0 8) (v.extractLsb' 8 8) (v.extractLsb' 16 8) (v.extractLsb' 24 8) = v := by
  apply BitVec.eq_of_getLsbD_eq
  intro i hi
  simp only [u32Of, BitVec.getLsbD_or, BitVec.getLsbD_setWidth, BitVec.getLsbD_shiftLeft, BitVec.getLsbD_extractLsb']
  by_cases h1 : i < 8
  · have a : i < 16 := by omega
    have b : i < 24 := by omega
    simp [h1, a, b, hi]
  · by_cases h2 : i < 16
    · have a : i - 8 < 8 := by omega
      have b : i < 24 := by omega
      have c : 8 + (i - 8) = i := by omega
      simp [h1, h2, a, b, c, hi]
      omega
    · by_cases h3 : i < 24
      · have a : ¬ i - 8 < 8 := by omega
        have b : i - 16 < 8 := by omega
        have c : 16 + (i - 16) = i := by omega
        simp [h1, h2, h3, a, b, c, hi]
        omega
      · have a : ¬ i - 8 < 8 := by omega
        have b : ¬ i - 16 < 8 := by omega
        have d : i - 24 < 8 := by omega
        have c : 24 + (i - 24) = i := by omega
        simp [h1, h2, h3, a, b, c, d, hi]
        omega

/-- The four bytes of an assembled `u32`. -/
theorem bytesOfU32_u32Of (b0 b1 b2 b3 : Byte) : bytesOfU32 (u32Of b0 b1 b2 b3) = [b0, b1, b2, b3] := by
  have e0 : (u32Of b0 b1 b2 b3).extractLsb' 0 8 = b0 := by
    apply BitVec.eq_of_getLsbD_eq
    intro i hi
    have a : i < 32 := by omega
    have b : i < 16 := by omega
    have c : i < 24 := by omega
    simp [u32Of, hi, a, b, c]
  have e1 : (u32Of b0 b1 b2 b3).extractLsb' 8 8 = b1 := by
    apply BitVec.eq_of_getLsbD_eq
    intro i hi
    have a : 8 + i < 32 := by omega
    have b : 8 + i < 16 := by omega
    have c : 8 + i < 24 := by omega
    simp [u32Of, hi, a, b, c]
  have e2 : (u32Of b0 b1 b2 b3).extractLsb' 16 8 = b2 := by
    apply BitVec.eq_of_getLsbD_eq
    intro i hi
    have a : 16 + i < 32 := by omega
    have c : 16 + i < 24 := by omega
    have z0 : b0.getLsbD (16 + i) = false := BitVec.getLsbD_of_ge _ _ (by omega)
    have z1 : b1.getLsbD (16 + i - 8) = false := BitVec.getLsbD_of_ge _ _ (by omega)
    simp [u32Of, hi, a, c, z0, z1]
  have e3 : (u32Of b0 b1 b2 b3).extractLsb' 24 8 = b3 := by
    apply BitVec.eq_of_getLsbD_eq
    intro i hi
    have a : 24 + i < 32 := by omega
    have z0 : b0.getLsbD (24 + i) = false := BitVec.getLsbD_of_ge _ _ (by omega)
    have z1 : b1.getLsbD (24 + i - 8) = false := BitVec.getLsbD_of_ge _ _ (by omega)
    have z2 : b2.getLsbD (24 + i - 16) = false := BitVec.getLsbD_of_ge _ _ (by omega)
    simp [u32Of, hi, a, z0, z1, z2]
  simp only [bytesOfU32, e0, e1, e2, e3]

@[simp] theorem bytesOfU16_length (v : U16) : (bytesOfU16 v).length = 2 := rfl

@[simp] theorem bytesOfU32_length (v : U32) : (bytesOfU32 v).length = 4 := rfl

@[simp] theorem headerBytes_length (t i : Byte) (n : U16) : (headerBytes t i n).length = 6 := rfl

theorem frameBytes_length (t i : Byte) (payload : List Byte) (crc : U16) :
    (frameBytes t i payload crc).length = 8 + payload.length := by
  simp [frameBytes]; omega

/-- The length field of a payload that fits holds its length. -/
theorem length_field_toNat (payload : List Byte) (h : payload.length ≤ 512) :
    (BitVec.ofNat 16 payload.length).toNat = payload.length := by
  simp only [BitVec.toNat_ofNat]; omega

end Sys2Proof.Machine
end

