-- ==== Sys2Proof/Laws/PerInstr.lean ====
section
/-! SUPPORT. The families of statements made for each instruction. -/

namespace Sys2Proof.Laws

open Sys2Proof Sys2Proof.Machine

/-- The length of an instruction in bytes: the formats of 30_encoding.md R88 for events, `8 + length` for frames (R82). -/
def formatLength : Instr → Nat
  | .reset => 1
  | .openChannel => 1
  | .closeChannel => 1
  | .setReplyGranted _ => 2
  | .crcInit => 1
  | .crcUpdate _ => 2
  | .crcValue => 1
  | .fbNew _ _ _ => 5
  | .fbAppendU8 _ => 2
  | .fbAppendU16 _ => 3
  | .fbAppendU32 _ => 5
  | .fbAppendRaw u => 3 + u.length
  | .sendMessage => 1
  | .sendRequest _ => 2
  | .queueMessage => 1
  | .rxByte _ => 2
  | .frameDeadlineFire => 1
  | .replyTimeoutFire => 1
  | .frameStatus _ payload _ => 8 + payload.length
  | .frameAck _ payload _ => 8 + payload.length
  | .frameNack _ payload _ => 8 + payload.length
  | .frameRequest _ payload _ => 8 + payload.length
  | .frameDomain _ _ payload _ => 8 + payload.length

/-- A payload fits when it has at most 512 bytes (R23). -/
theorem payloadFits_iff (u : List Byte) : payloadFits u = true ↔ u.length ≤ 512 := by
  unfold payloadFits
  exact decide_eq_true_iff

/-- The bytes of a frame (R80, R82). -/
theorem frameBytes_shape (t tid : Byte) (payload : List Byte) (crc : U16) :
    (frameBytes t tid payload crc).length = 8 + payload.length ∧
      (frameBytes t tid payload crc).head? = some Config.preamble1 :=
  ⟨frameBytes_length t tid payload crc, rfl⟩

namespace EncodeShape

/-- The encoding has the length of its format, and its first byte tells an event from a frame. -/
def Statement (i : Instr) : Prop :=
  (encode i).length = formatLength i ∧ ((encode i).head? = some Config.preamble1 ↔ i.isEvent = false)

theorem reset : Statement .reset := ⟨rfl, by decide⟩
theorem openChannel : Statement .openChannel := ⟨rfl, by decide⟩
theorem closeChannel : Statement .closeChannel := ⟨rfl, by decide⟩
theorem setReplyGranted (v : Bool) : Statement (.setReplyGranted v) := ⟨rfl, by revert v; decide⟩
theorem crcInit : Statement .crcInit := ⟨rfl, by decide⟩
theorem crcUpdate (b : Byte) : Statement (.crcUpdate b) := ⟨rfl, by simp [encode, Instr.isEvent, Config.preamble1]⟩
theorem crcValue : Statement .crcValue := ⟨rfl, by decide⟩
theorem fbNew (t : Byte) (r : Bool) (m : U16) : Statement (.fbNew t r m) :=
  ⟨rfl, by simp [encode, Instr.isEvent, Config.preamble1]⟩
theorem fbAppendU8 (v : Byte) : Statement (.fbAppendU8 v) := ⟨rfl, by simp [encode, Instr.isEvent, Config.preamble1]⟩
theorem fbAppendU16 (v : U16) : Statement (.fbAppendU16 v) := ⟨rfl, by simp [encode, Instr.isEvent, Config.preamble1]⟩
theorem fbAppendU32 (v : U32) : Statement (.fbAppendU32 v) := ⟨rfl, by simp [encode, Instr.isEvent, Config.preamble1]⟩
theorem fbAppendRaw (u : List Byte) : Statement (.fbAppendRaw u) :=
  ⟨by simp [encode, formatLength]; omega, by simp [encode, Instr.isEvent, Config.preamble1]⟩
theorem sendMessage : Statement .sendMessage := ⟨rfl, by decide⟩
theorem sendRequest (q : Byte) : Statement (.sendRequest q) := ⟨rfl, by simp [encode, Instr.isEvent, Config.preamble1]⟩
theorem queueMessage : Statement .queueMessage := ⟨rfl, by decide⟩
theorem rxByte (b : Byte) : Statement (.rxByte b) := ⟨rfl, by simp [encode, Instr.isEvent, Config.preamble1]⟩
theorem frameDeadlineFire : Statement .frameDeadlineFire := ⟨rfl, by decide⟩
theorem replyTimeoutFire : Statement .replyTimeoutFire := ⟨rfl, by decide⟩
theorem frameStatus (tid : Byte) (payload : List Byte) (crc : U16) : Statement (.frameStatus tid payload crc) :=
  ⟨(frameBytes_shape _ _ _ _).1, iff_of_true rfl rfl⟩
theorem frameAck (tid : Byte) (payload : List Byte) (crc : U16) : Statement (.frameAck tid payload crc) :=
  ⟨(frameBytes_shape _ _ _ _).1, iff_of_true rfl rfl⟩
theorem frameNack (tid : Byte) (payload : List Byte) (crc : U16) : Statement (.frameNack tid payload crc) :=
  ⟨(frameBytes_shape _ _ _ _).1, iff_of_true rfl rfl⟩
theorem frameRequest (tid : Byte) (payload : List Byte) (crc : U16) : Statement (.frameRequest tid payload crc) :=
  ⟨(frameBytes_shape _ _ _ _).1, iff_of_true rfl rfl⟩
theorem frameDomain (msgType tid : Byte) (payload : List Byte) (crc : U16) :
    Statement (.frameDomain msgType tid payload crc) :=
  ⟨(frameBytes_shape _ _ _ _).1, iff_of_true rfl rfl⟩

end EncodeShape

end Sys2Proof.Laws
end

