-- ==== Sys2Proof/Laws/Step.lean ====
section
/-! SUPPORT. What a step can do, said once: wait, refuse a reserved event word, or execute the first instruction of its input. -/

namespace Sys2Proof.Machine

/-- A word that is one whole instruction is read as that instruction, with nothing after it. -/
theorem decodeNext_of_decodeInput {w : InputWord} {i : Instr} (h : decodeInput w = .ok i) : decodeNext w = .ok (i, []) := by
  have key : ∀ d : Decoded, wholeWord d = .ok i → d = .ok (i, []) := by
    intro d hd
    unfold wholeWord at hd
    split at hd
    · cases hd; rfl
    · cases hd
    · cases hd
  cases w with
  | event bytes => exact key _ h
  | wire bytes => simp only [decodeNext, decodeWire, key _ h]

/-- Bytes on the receive stream always give an instruction, unless there are none (R91). -/
theorem decodeWire_cons (b : Byte) (u : List Byte) : ∃ r, decodeWire (b :: u) = .ok r := by
  unfold decodeWire
  split
  · exact ⟨_, rfl⟩
  · exact ⟨_, rfl⟩

/-- A step on a word whose first instruction is `i`. -/
theorem step_of_decodeNext {s : State} {w : InputWord} {rest : List InputWord} {i : Instr} {left : List Byte}
    (hi : s.inputs = w :: rest) (hd : decodeNext w = .ok (i, left)) :
    step s = exec i { s with inputs := unread w left ++ rest } := by
  simp only [step, fetch, hi, hd]

/-- If a step answers a next state, it waited, which changes only what waits at the input, or it executed the first instruction
of its oldest word (R14). -/
theorem step_next_cases {s t : State} (h : step s = .next t) :
    (∃ ws, t = { s with inputs := ws }) ∨
    ∃ w rest i left, s.inputs = w :: rest ∧ decodeNext w = .ok (i, left) ∧
      exec i { s with inputs := unread w left ++ rest } = .next t := by
  unfold step fetch at h
  cases hi : s.inputs with
  | nil => simp only [hi] at h; cases h; exact .inl ⟨s.inputs, rfl⟩
  | cons w rest =>
    simp only [hi] at h
    cases hd : decodeNext w with
    | ok r => simp only [hd] at h; exact .inr ⟨w, rest, r.1, r.2, rfl, hd, h⟩
    | error e =>
      cases e <;> simp only [hd] at h <;> cases h
      exact .inl ⟨_, rfl⟩

/-- The instruction that `withFetchWord` places is the only thing it changes. -/
theorem withFetchWord_eq (s : State) (nbits w : Nat) :
    s.withFetchWord nbits w = { s with inputs := firstWord (tableBytes nbits w) :: s.inputs } := rfl

end Sys2Proof.Machine
end

