-- ==== Sys2Proof/Tests/Slice0.lean ====
section
/-! SUPPORT. Tests. Expected bytes come from spec/95_test_vectors.md (S1, S2, V1 to V30, P1 to P6) or are written out from the
encodings of spec/30_encoding.md. A theorem `test_witness_<statement>` shows a state and operands that meet the hypotheses of the
statement of that name. -/

namespace Sys2Proof.Tests

open Sys2Proof Sys2Proof.Machine

/-! ## Helpers -/

/-- The next state, if there is one. -/
def ran : Host.Outcome State Fault Refusal → Option State
  | .next t => some t
  | .fault _ => none
  | .refused _ => none

/-- The refusal, if there is one. -/
def stop : Host.Outcome State Fault Refusal → Option Refusal
  | .next _ => none
  | .fault _ => none
  | .refused why => some why

/-- What an instruction says, in a state that has said nothing. -/
def said (i : Instr) (s : State) : Option (List Output) := (ran (exec i s)).map State.out

/-- What the reliability layer holds after an instruction. -/
def relAfter (i : Instr) (s : State) : Option Reliability := (ran (exec i s)).map State.r

/-- What the parser holds after an instruction. -/
def parserAfter (i : Instr) (s : State) : Option Parser := (ran (exec i s)).map State.p

/-- An open channel, the gate at `gate`, the next id `tid`, everything else as after reset. -/
def opened (gate : Bool) (tid : Byte) : State :=
  { State.reset with r := { State.reset.r with isOpen := true, replyGranted := gate, nextTid := tid } }

/-- With this build register. -/
def built (d : Descriptor) (s : State) : State := { s with fb := d }

/-- With this Pending Exchange, its timer armed. -/
def awaiting (x : Pending) (s : State) : State :=
  { s with r := { s.r with pending := some x, replyTimerArmed := true, replyTimerMs := x.timeoutMs } }

/-- With this queue. -/
def queued (q : List Descriptor) (s : State) : State := { s with r := { s.r with queue := q } }

/-- An open channel in this parser state, the deadline armed. -/
def parsing (q : ParserState) : State :=
  { opened true 0 with p := { State.reset.p with state := q, deadlineArmed := true } }

/-- With this answer waiting on the DOM port. -/
def answering (v : Verdict) (s : State) : State := { s with dom := { s.dom with verdicts := [v] } }

/-- With this input. -/
def given (w : InputWord) (s : State) : State := { s with inputs := [w] }

/-- `{0, [AA], repeatable, 500}` of V19 to V24. -/
def statusAA : Descriptor := ⟨0, [0xAA], true, 500⟩

/-- `{0, 8, [AA], 0, repeatable, 500}`. -/
def exchange8 : Pending := ⟨0, 8, [0xAA], 0, true, 500⟩

/-- `{0, 9, [AA], 0, repeatable, 500}` of V24. -/
def exchange9 : Pending := ⟨0, 9, [0xAA], 0, true, 500⟩

/-- `{4, 10, [01 02 03], 0, once, 1000}` of V24. -/
def onceA : Pending := ⟨4, 10, [1, 2, 3], 0, false, 1000⟩

/-- The wire bytes of `{0, 8, [AA]}` (V8). -/
def wire8 : List Byte := [0x5A, 0xA5, 0x00, 0x08, 0x01, 0x00, 0xAA, 0x6D, 0xEC]

/-- The wire bytes of `{0, 9, [AA]}` (V8). -/
def wire9 : List Byte := [0x5A, 0xA5, 0x00, 0x09, 0x01, 0x00, 0xAA, 0xD9, 0x9A]

/-- The parser of V12's Ack `5A A5 01 02 00 00 61 E9` before its last byte. -/
def beforeLast : State :=
  { opened true 0 with p := ⟨.crc2, 0xE961, 1, 2, 0, 0, [], 0x0061, true⟩ }

/-! ## WellFormed: each check refuses an ill-formed term -/

theorem test_wf_raw_512 : (Instr.fbAppendRaw (List.replicate 512 0)).wellFormed = true := by decide +kernel
theorem test_wf_raw_513 : (Instr.fbAppendRaw (List.replicate 513 0)).wellFormed = false := by decide +kernel
theorem test_wf_status_513 : (Instr.frameStatus 0 (List.replicate 513 0) 0).wellFormed = false := by decide +kernel
theorem test_wf_ack_513 : (Instr.frameAck 0 (List.replicate 513 0) 0).wellFormed = false := by decide +kernel
theorem test_wf_nack_513 : (Instr.frameNack 0 (List.replicate 513 0) 0).wellFormed = false := by decide +kernel
theorem test_wf_request_513 : (Instr.frameRequest 0 (List.replicate 513 0) 0).wellFormed = false := by decide +kernel
theorem test_wf_domain_513 : (Instr.frameDomain 4 0 (List.replicate 513 0) 0).wellFormed = false := by decide +kernel
theorem test_wf_domain_type3 : (Instr.frameDomain 3 0 [] 0).wellFormed = false := by decide
theorem test_wf_domain_type4 : (Instr.frameDomain 4 0 [] 0).wellFormed = true := by decide

/-! ## Decoding: words written out from R85, R88 (events) and R80 (frames) -/

theorem test_decode_reset : decodeInput (.event [0x00]) = .ok .reset := by rfl
theorem test_decode_open : decodeInput (.event [0x01]) = .ok .openChannel := by rfl
theorem test_decode_close : decodeInput (.event [0x02]) = .ok .closeChannel := by rfl
theorem test_decode_gate_on : decodeInput (.event [0x03, 0x01]) = .ok (.setReplyGranted true) := by rfl
theorem test_decode_gate_off : decodeInput (.event [0x03, 0x00]) = .ok (.setReplyGranted false) := by rfl
theorem test_decode_crcInit : decodeInput (.event [0x10]) = .ok .crcInit := by rfl
theorem test_decode_crcUpdate : decodeInput (.event [0x11, 0x5A]) = .ok (.crcUpdate 0x5A) := by rfl
theorem test_decode_crcValue : decodeInput (.event [0x12]) = .ok .crcValue := by rfl
theorem test_decode_fbNew_once : decodeInput (.event [0x20, 0x04, 0x00, 0xE8, 0x03]) = .ok (.fbNew 4 false 1000) := by rfl
theorem test_decode_fbNew_repeatable :
    decodeInput (.event [0x20, 0x00, 0x01, 0x00, 0x00]) = .ok (.fbNew 0 true 0) := by rfl
theorem test_decode_fbAppendU8 : decodeInput (.event [0x21, 0xAA]) = .ok (.fbAppendU8 0xAA) := by rfl
theorem test_decode_fbAppendU16 : decodeInput (.event [0x22, 0x34, 0x12]) = .ok (.fbAppendU16 0x1234) := by rfl
theorem test_decode_fbAppendU32 :
    decodeInput (.event [0x23, 0x78, 0x56, 0x34, 0x12]) = .ok (.fbAppendU32 0x12345678) := by rfl
theorem test_decode_fbAppendRaw :
    decodeInput (.event [0x24, 0x02, 0x00, 0xDE, 0xAD]) = .ok (.fbAppendRaw [0xDE, 0xAD]) := by rfl
theorem test_decode_sendMessage : decodeInput (.event [0x30]) = .ok .sendMessage := by rfl
theorem test_decode_sendRequest : decodeInput (.event [0x31, 0x07]) = .ok (.sendRequest 7) := by rfl
theorem test_decode_queueMessage : decodeInput (.event [0x32]) = .ok .queueMessage := by rfl
theorem test_decode_rxByte : decodeInput (.event [0x40, 0x5A]) = .ok (.rxByte 0x5A) := by rfl
theorem test_decode_frameDeadlineFire : decodeInput (.event [0x41]) = .ok .frameDeadlineFire := by rfl
theorem test_decode_replyTimeoutFire : decodeInput (.event [0x42]) = .ok .replyTimeoutFire := by rfl
theorem test_decode_frameStatus :
    decodeInput (.wire [0x5A, 0xA5, 0x00, 0x01, 0x02, 0x00, 0x12, 0x34, 0x71, 0x83]) =
      .ok (.frameStatus 1 [0x12, 0x34] 0x8371) := by rfl
theorem test_decode_frameAck :
    decodeInput (.wire [0x5A, 0xA5, 0x01, 0x02, 0x00, 0x00, 0x61, 0xE9]) = .ok (.frameAck 2 [] 0xE961) := by rfl
theorem test_decode_frameNack :
    decodeInput (.wire [0x5A, 0xA5, 0x02, 0x09, 0x01, 0x00, 0x00, 0xFA, 0xCA]) = .ok (.frameNack 9 [0] 0xCAFA) := by rfl
theorem test_decode_frameRequest :
    decodeInput (.wire [0x5A, 0xA5, 0x03, 0x07, 0x01, 0x00, 0x00, 0xF1, 0xC2]) = .ok (.frameRequest 7 [0] 0xC2F1) := by rfl
theorem test_decode_frameDomain :
    decodeInput (.wire [0x5A, 0xA5, 0x04, 0x09, 0x03, 0x00, 0x01, 0x02, 0x03, 0x5D, 0x33]) =
      .ok (.frameDomain 4 9 [1, 2, 3] 0x335D) := by rfl

/-! Words that are no instruction (U1, U2, R80, R83, R88). -/

theorem test_decode_reserved_opcode : decodeInput (.event [0x5A, 0xA5]) = .error .reservedOpcode := by rfl
theorem test_decode_reserved_bool : decodeInput (.event [0x03, 0x02]) = .error .reservedOperand := by rfl
theorem test_decode_reserved_flag : decodeInput (.event [0x20, 0x00, 0x80, 0x00, 0x00]) = .error .reservedOperand := by rfl
theorem test_decode_reserved_count : decodeInput (.event [0x24, 0x01, 0x02]) = .error .reservedOperand := by rfl
theorem test_decode_truncated : decodeInput (.event [0x22, 0x34]) = .error .truncated := by rfl
theorem test_decode_trailing : decodeInput (.event [0x00, 0x00]) = .error .trailingBytes := by rfl
theorem test_decode_no_preamble : decodeInput (.wire [0xA5, 0x5A, 1, 2, 0, 0, 0, 0]) = .error .noPreamble := by rfl
theorem test_decode_oversized : decodeInput (.wire [0x5A, 0xA5, 0, 1, 0x01, 0x02]) = .error .oversizedLength := by rfl

/-- A table word read from its least significant byte, and a WIRE match as the table writes it (log entry 5). -/
theorem test_decodeTableWord :
    decodeTableWord 8 0x11 = some (.crcUpdate 0) ∧ decodeTableWord 24 0x01A55A = some (.frameAck 0 [] 0) ∧
    decodeTableWord 24 0x5AA503 = some (.frameRequest 0 [] 0) := by decide

/-! ## One step of each instruction -/

/-- R41, R290: a closed channel, nothing pending, nothing said. -/
theorem test_reset_tears_down_silently :
    (ran (exec .reset (awaiting exchange8 (opened true 9)))).map (fun t => (t.r.pending, t.r.isOpen, t.out)) =
      some (none, false, []) := by rfl

/-- R181. -/
theorem test_open : (relAfter .openChannel State.reset).map Reliability.isOpen = some true := by rfl

/-- V22: OPEN on an open channel. -/
theorem test_open_keeps_exchange :
    ran (exec .openChannel (awaiting exchange8 (opened true 9))) = some (awaiting exchange8 (opened true 9)) := by decide

/-- P4: one event for the exchange, none for the queued. -/
theorem test_close_reports_pending_only :
    said .closeChannel (queued [statusAA, statusAA] (awaiting exchange8 (opened true 9))) =
      some [.messageCompleted 0 8 false] := by decide

/-- P4: the gate is cleared, the queue emptied. -/
theorem test_close_tears_down :
    (relAfter .closeChannel (queued [statusAA] (opened true 9))).map (fun r => (r.isOpen, r.replyGranted, r.queue)) =
      some (false, false, []) := by decide

/-- V20. -/
theorem test_gate_releases_queue :
    said (.setReplyGranted true) (queued [statusAA] (opened false 8)) = some [.tx wire8] := by decide

/-- V20: the pending exchange stays, the timer stays armed. -/
theorem test_gate_closed_keeps_exchange :
    (relAfter (.setReplyGranted false) (awaiting exchange8 (opened true 9))).map
      (fun r => (r.replyGranted, r.pending, r.replyTimerArmed)) = some (false, some exchange8, true) := by decide

/-- P6. -/
theorem test_crcInit : (ran (exec .crcInit State.reset)).map (fun t => t.crc.acc) = some 0xFFFF := by decide

/-- V3, the first, second and sixth rows, and V1's last. -/
theorem test_crcStep_vectors :
    crcStep 0xFFFF 0x00 = 0xE1F0 ∧ crcStep 0xFFFF 0x5A = 0x1A4F ∧ crcStep 0x1234 0x00 = 0x0673 ∧
    crcStep 0xA12B 0x39 = 0x29B1 := by decide

/-- V3. -/
theorem test_crcUpdate :
    (ran (exec (.crcUpdate 0x00) { State.reset with crc := ⟨0x1234⟩ })).map (fun t => (t.crc.acc, t.out)) =
      some (0x0673, []) := by decide

/-- V5: reading does not change the accumulator. -/
theorem test_crcValue :
    (ran (exec .crcValue { State.reset with crc := ⟨0x29B1⟩ })).map (fun t => (t.crc.acc, t.out)) =
      some (0x29B1, [.val 0x29B1]) := by decide

/-- R134: a timeout of 0 selects 500. -/
theorem test_fbNew_default_timeout :
    (ran (exec (.fbNew 6 false 0) (built statusAA State.reset))).map State.fb = some ⟨6, [], false, 500⟩ := by decide

/-- P3. -/
theorem test_fbNew : (ran (exec (.fbNew 4 false 1000) State.reset)).map State.fb = some ⟨4, [], false, 1000⟩ := by decide

/-- V9, each append in turn. -/
theorem test_fbAppendU8 : (ran (exec (.fbAppendU8 0x11) State.reset)).map (fun t => (t.fb.payload, t.out)) =
    some ([0x11], [.ret .ok]) := by decide
theorem test_fbAppendU16 : (ran (exec (.fbAppendU16 0x1234) (built ⟨6, [0x11], false, 500⟩ State.reset))).map
    (fun t => t.fb.payload) = some [0x11, 0x34, 0x12] := by decide
theorem test_fbAppendU32 : (ran (exec (.fbAppendU32 0x12345678) (built ⟨6, [0x11], false, 500⟩ State.reset))).map
    (fun t => t.fb.payload) = some [0x11, 0x78, 0x56, 0x34, 0x12] := by decide
theorem test_fbAppendRaw : (ran (exec (.fbAppendRaw [0xDE, 0xAD]) (built ⟨6, [0x11], false, 500⟩ State.reset))).map
    (fun t => t.fb.payload) = some [0x11, 0xDE, 0xAD] := by decide

/-- V10: 511 bytes and a U16. -/
theorem test_fbAppendU16_overflow :
    said (.fbAppendU16 0xBEEF) (built ⟨4, List.replicate 511 0, false, 500⟩ State.reset) = some [.ret .buildOverflow] := by
  decide +kernel

/-- V10: 512 bytes and an empty append. -/
theorem test_fbAppendRaw_empty_fits :
    said (.fbAppendRaw []) (built ⟨4, List.replicate 512 0, false, 500⟩ State.reset) = some [.ret .ok] := by decide +kernel

/-- R89's table. -/
theorem test_status_codes : [Status.ok, .notOpen, .msgInProgress, .gateClosed, .buildOverflow].map Status.code = [0, 1, 2, 3, 4] := by
  decide

/-- V19, third row. -/
theorem test_sendMessage : said .sendMessage (built statusAA (opened true 8)) = some [.tx wire8, .ret .ok] := by decide

/-- V19, second row: the id is consumed, nothing is pending. -/
theorem test_sendMessage_gate_closed :
    (ran (exec .sendMessage (built statusAA (opened false 8)))).map (fun t => (t.out, t.r.nextTid, t.r.pending)) =
      some ([.ret .gateClosed], 9, none) := by decide

/-- P1. -/
theorem test_sendRequest :
    said (.sendRequest 0) (opened true 7) =
      some [.tx [0x5A, 0xA5, 0x03, 0x07, 0x01, 0x00, 0x00, 0xF1, 0xC2], .ret .ok] := by decide

/-- V19, fifth row. -/
theorem test_sendRequest_in_progress :
    said (.sendRequest 0) (awaiting exchange8 (opened true 9)) = some [.ret .msgInProgress] := by decide

/-- P1. -/
theorem test_queueMessage_sends :
    said .queueMessage (built ⟨0, [0x34, 0x12], true, 500⟩ (opened true 0x21)) =
      some [.tx [0x5A, 0xA5, 0x00, 0x21, 0x02, 0x00, 0x34, 0x12, 0x21, 0x63]] := by decide

/-- P4. -/
theorem test_queueMessage_closed : said .queueMessage (built statusAA State.reset) = some [.log .queueWhileClosed] := by decide

/-- V12, the first row. -/
theorem test_rxByte_preamble :
    (parserAfter (.rxByte 0x5A) (opened true 0)).map (fun q => (q.state, q.crc, q.deadlineArmed)) =
      some (.preamble2, 0x1A4F, true) := by decide

/-- V12: the last byte of the Ack, with nothing pending. -/
theorem test_rxByte_last :
    (ran (exec (.rxByte 0xE9) beforeLast)).map (fun t => (t.p.state, t.p.deadlineArmed, t.out)) =
      some (.idle, false, [.log .unmatchedReply]) := by decide

/-- V16. -/
theorem test_frameDeadlineFire : said .frameDeadlineFire (parsing .payload) = some [.log .frameDeadline] := by decide

/-- V29. -/
theorem test_frameDeadlineFire_stale : ran (exec .frameDeadlineFire (opened true 0)) = some (opened true 0) := by decide

/-- P2: a resend, and the count. -/
theorem test_replyTimeoutFire :
    (ran (exec .replyTimeoutFire (awaiting exchange8 (opened true 9)))).map
      (fun t => (t.out, t.r.pending.map Pending.retryCount, t.r.replyTimerArmed)) = some ([.tx wire8], some 1, true) := by decide

/-- V28: the resend is abandoned at the gate. -/
theorem test_replyTimeoutFire_gate_closed :
    said .replyTimeoutFire (awaiting exchange8 (opened false 9)) = some [.messageCompleted 0 8 false] := by decide

/-- V27. -/
theorem test_frameStatus :
    said (.frameStatus 1 [0x12, 0x34] 0x8371) (answering .handled (opened true 0)) =
      some [.tx [0x5A, 0xA5, 0x01, 0x01, 0x00, 0x00, 0x31, 0xB0]] := by decide +kernel

/-- V14: the first payload byte corrupted. -/
theorem test_frameStatus_corrupt :
    said (.frameStatus 1 [0x13, 0x34] 0x8371) (answering .handled (opened true 0)) = some [.log .crcMismatch] := by
  decide +kernel

/-- P3: the Ack completes the exchange and the queued frame goes out in the same step. -/
theorem test_frameAck :
    said (.frameAck 9 [] 0x1990) (queued [⟨4, [1, 2, 3], false, 1000⟩] (awaiting exchange9 (opened true 10))) =
      some [.statusAcknowledged, .messageCompleted 0 9 true,
        .tx [0x5A, 0xA5, 0x04, 0x0A, 0x03, 0x00, 0x01, 0x02, 0x03, 0xBD, 0xFD]] := by decide +kernel

/-- V23: an Ack for another id. -/
theorem test_frameAck_unmatched :
    said (.frameAck 6 [] 0x35A1) (awaiting ⟨0, 5, [], 0, true, 500⟩ (opened true 6)) = some [.log .unmatchedReply] := by
  decide +kernel

/-- V24. -/
theorem test_frameNack_resends :
    said (.frameNack 9 [0] 0xCAFA) (awaiting exchange9 (opened true 10)) = some [.tx wire9] := by decide +kernel

/-- V24. -/
theorem test_frameNack_fails :
    said (.frameNack 10 [5] 0x0183) (awaiting onceA (opened true 11)) = some [.messageCompleted 4 10 false] := by decide +kernel

/-- V26, the first row. -/
theorem test_frameRequest :
    said (.frameRequest 7 [0] 0xC2F1) (opened true 0) =
      some [.tx [0x5A, 0xA5, 0x01, 0x07, 0x00, 0x00, 0x91, 0x02], .requestReceived 7 0] := by decide +kernel

/-- V26, the last row: the length test comes before the gate. -/
theorem test_frameRequest_bad_length :
    said (.frameRequest 3 [] 0x3339) (opened false 0) =
      some [.tx [0x5A, 0xA5, 0x02, 0x03, 0x01, 0x00, 0x04, 0xD5, 0xE2]] := by decide +kernel

/-- V27, unhandled. -/
theorem test_frameDomain_unhandled :
    said (.frameDomain 4 9 [1, 2, 3] 0x335D) (answering .unhandled (opened true 0)) =
      some [.tx [0x5A, 0xA5, 0x02, 0x09, 0x01, 0x00, 0x05, 0x5F, 0x9A]] := by decide +kernel

/-- V27, rejected. -/
theorem test_frameDomain_rejected :
    said (.frameDomain 4 9 [1, 2, 3] 0x335D) (answering (.rejected 0x42) (opened false 0)) =
      some [.tx [0x5A, 0xA5, 0x02, 0x09, 0x01, 0x00, 0x42, 0x7C, 0xA2]] := by decide +kernel

/-- R195, U7. -/
theorem test_hostBuiltReply_refused :
    stop (exec .sendMessage (built ⟨1, [], false, 500⟩ (opened true 0))) = some .hostBuiltReply ∧
    stop (exec .queueMessage (built ⟨2, [], false, 500⟩ (opened true 0))) = some .hostBuiltReply := by decide

/-! ## Fetching -/

/-- The word is consumed and executed (R14). -/
theorem test_step : (ran (step (given (.event [0x11, 0x5A]) { State.reset with crc := ⟨0xFFFF⟩ }))).map
    (fun t => (t.crc.acc, t.inputs)) = some (0x1A4F, []) := by decide

/-- U1. -/
theorem test_step_refuses_reserved :
    stop (step (given (.event [0x04]) State.reset)) = some (.reservedWord .reservedOpcode) := by decide

/-- U2. -/
theorem test_step_refuses_reserved_operand :
    stop (step (given (.event [0x03, 0x02]) State.reset)) = some (.reservedWord .reservedOperand) := by decide

/-- P6's events delivered in one piece: the first is executed, the others come next. -/
theorem test_step_splits :
    (ran (step (given (.event [0x10, 0x11, 0x31, 0x12]) State.reset))).map (fun t => (t.crc.acc, t.inputs)) =
      some (0xFFFF, [.event [0x11, 0x31, 0x12]]) := by decide

/-- An event delivered in two pieces: the block waits for the second. -/
theorem test_step_joins :
    (ran (step { State.reset with inputs := [.event [0x22, 0x34], .event [0x12]] })).map State.inputs =
      some [.event [0x22, 0x34, 0x12]] := by decide

/-- V13: a length above 512 is the parser's to drop, byte by byte. -/
theorem test_step_oversized_frame :
    (ran (step (given (.wire [0x5A, 0xA5, 0x00, 0x01, 0x01, 0x02]) (opened true 0)))).map (fun t => (t.p.state, t.inputs)) =
      some (.preamble2, [.wire [0xA5, 0x00, 0x01, 0x01, 0x02]]) := by decide

/-- R152: a byte that is no preamble is discarded. -/
theorem test_step_no_preamble :
    ran (step (given (.wire [0xA5]) (opened true 0))) = some (opened true 0) := by decide

/-- The host's word runs as the first instruction after reset. -/
theorem test_withFetchWord : step (State.reset.withFetchWord 8 0x30) = exec .sendMessage State.reset := by rfl

/-! ## Witnesses: states and operands that meet the hypotheses of the statements -/

theorem test_witness_SingleByteCorruptionChangesCrc : (0x12 : Byte) ≠ 0x13 := by decide

/-- 512 is the largest payload, 0 the smallest. -/
theorem test_witness_SerializeLaysOutTheFrame :
    ([] : List Byte).length ≤ 512 ∧ (List.replicate 512 (0 : Byte)).length ≤ 512 := by decide +kernel

theorem test_witness_SerializedFieldsReadBack : (List.replicate 512 (0 : Byte)).length ≤ 512 := by decide +kernel

theorem test_witness_ScalarAppendBuildsTheSameFrameAsItsBytes :
    (built ⟨4, List.replicate 510 0, false, 500⟩ State.reset).fb.payload.length + 2 ≤ 512 := by decide +kernel

theorem test_witness_ReceptionWhileClosedChangesNothing : State.reset.r.isOpen = false := rfl

theorem test_witness_RxByteInIdleStartsSessionOnPreamble :
    (opened true 0).r.isOpen = true ∧ (opened true 0).p.state = .idle ∧ (0xA5 : Byte) ≠ 0x5A := by decide

theorem test_witness_RxByteInPreamble2AcceptsOnlyA5 :
    (parsing .preamble2).r.isOpen = true ∧ (parsing .preamble2).p.state = .preamble2 ∧ (0x5A : Byte) ≠ 0xA5 := by decide

theorem test_witness_RxByteStoresMsgTypeAndTid :
    (parsing .msgType).r.isOpen = true ∧ (parsing .msgType).p.state = .msgType ∧
    (parsing .transactionId).r.isOpen = true ∧ (parsing .transactionId).p.state = .transactionId := by decide

/-- With this low length byte received. -/
def lengthLow (l : U16) : State := { parsing .length2 with p := { (parsing .length2).p with length := l } }

/-- V13's boundary, clause by clause: 513, 0, 1 and 512. -/
theorem test_witness_RxByteAssemblesAndValidatesLength :
    (parsing .length1).r.isOpen = true ∧ (parsing .length1).p.state = .length1 ∧
    (∀ l, (lengthLow l).r.isOpen = true ∧ (lengthLow l).p.state = .length2) ∧
    512 < ((lengthLow 1).p.length ||| ((0x02 : Byte).setWidth 16 <<< 8)).toNat ∧
    ((lengthLow 0).p.length ||| ((0x00 : Byte).setWidth 16 <<< 8)).toNat = 0 ∧
    ((lengthLow 1).p.length ||| ((0x00 : Byte).setWidth 16 <<< 8)).toNat = 1 ∧
    ((lengthLow 0).p.length ||| ((0x02 : Byte).setWidth 16 <<< 8)).toNat = 512 :=
  ⟨by decide, by decide, fun _ => ⟨rfl, rfl⟩, by decide, by decide, by decide, by decide⟩

theorem test_witness_RxByteAccumulatesPayload :
    (parsing .payload).r.isOpen = true ∧ (parsing .payload).p.state = .payload := by decide

theorem test_witness_RxByteStoresLowCrcByte : (parsing .crc1).r.isOpen = true ∧ (parsing .crc1).p.state = .crc1 := by decide

/-- The right high byte, and a wrong one. -/
theorem test_witness_RxByteComparesCrcAndDispatches :
    beforeLast.r.isOpen = true ∧ beforeLast.p.state = .crc2 ∧
    (beforeLast.p.rxCrc ||| ((0xE9 : Byte).setWidth 16 <<< 8)) = beforeLast.p.crc ∧
    (beforeLast.p.rxCrc ||| ((0xE8 : Byte).setWidth 16 <<< 8)) ≠ beforeLast.p.crc := by decide

theorem test_witness_FrameRowIsTheRunOfItsBytes : (Instr.frameAck 2 [] 0xE961).isEvent = false := rfl

theorem test_witness_SerializedFrameIsDispatchedOnce :
    (opened true 0).r.isOpen = true ∧ (opened true 0).p.state = .idle ∧ (List.replicate 512 (0 : Byte)).length ≤ 512 := by
  decide +kernel

theorem test_beforeLast_sound : beforeLast.SessionSound := by
  constructor <;> decide

theorem test_witness_OnlyValidFramesAreDispatched :
    beforeLast.SessionSound ∧ beforeLast.r.isOpen = true ∧ beforeLast.p.state = .crc2 ∧
    sessionBytes beforeLast.p ++ [lowByte beforeLast.p.rxCrc, 0xE9] = serialize 1 2 [] ∧
    sessionBytes beforeLast.p ++ [lowByte beforeLast.p.rxCrc, 0xE8] ≠ serialize 1 2 [] :=
  ⟨test_beforeLast_sound, by decide, by decide, by decide, by decide⟩

theorem test_witness_EveryStepKeepsSessionSound :
    (given (.event [0x40, 0xE9]) beforeLast).SessionSound ∧
    (ran (step (given (.event [0x40, 0xE9]) beforeLast))).isSome = true :=
  ⟨by constructor <;> decide, by decide⟩

/-- V14, and the CRC field off by one for each class. -/
theorem test_witness_CorruptedFrameIsDroppedSilently :
    (opened true 0).r.isOpen = true ∧ (opened true 0).p.state = .idle ∧ ([0x13, 0x34] : List Byte).length ≤ 512 ∧
    (0x8371 : U16) ≠ goodCrc 0 1 [0x13, 0x34] ∧ (0x8371 : U16) ≠ goodCrc 1 1 [0x13, 0x34] ∧
    (0x8371 : U16) ≠ goodCrc 2 1 [0x13, 0x34] ∧ (0x8371 : U16) ≠ goodCrc 3 1 [0x13, 0x34] ∧
    (0x8371 : U16) ≠ goodCrc 255 1 [0x13, 0x34] := by decide +kernel

/-- A match, another id pending, and nothing pending. -/
theorem test_witness_AckCompletesMatchingExchange :
    (awaiting exchange8 (opened true 9)).r.isOpen = true ∧ (awaiting exchange8 (opened true 9)).p.state = .idle ∧
    ([] : List Byte).length ≤ 512 ∧ (awaiting exchange8 (opened true 9)).r.pending = some exchange8 ∧ exchange8.tid = 8 ∧
    (opened true 9).r.pending = none ∧ exchange8.tid ≠ 9 := by decide

theorem test_witness_NackRetriesOrFailsMatchingExchange :
    (awaiting exchange9 (opened true 10)).r.isOpen = true ∧ (awaiting exchange9 (opened true 10)).p.state = .idle ∧
    ([0] : List Byte).length ≤ 512 ∧ (awaiting exchange9 (opened true 10)).r.pending = some exchange9 ∧
    exchange9.tid = 9 ∧ exchange9.tid ≠ 8 := by decide

theorem test_witness_RequestIsAckedNackedOrDropped :
    (opened false 0).r.isOpen = true ∧ (opened false 0).p.state = .idle ∧ ([0] : List Byte).length ≤ 512 ∧
    (opened false 0).r.replyGranted = false ∧ (opened true 0).r.replyGranted = true := by decide

theorem test_witness_StatusAndDomainFramesAreAnswered :
    (answering .handled (opened true 0)).r.isOpen = true ∧ (answering .handled (opened true 0)).p.state = .idle ∧
    ([1, 2, 3] : List Byte).length ≤ 512 ∧ ((0 : Byte) = 0 ∨ 4 ≤ (0 : Byte).toNat) ∧
    ((4 : Byte) = 0 ∨ 4 ≤ (4 : Byte).toNat) ∧ ((255 : Byte) = 0 ∨ 4 ≤ (255 : Byte).toNat) ∧
    (answering .handled (opened true 0)).dom.verdicts.head? = some .handled := by decide

theorem test_witness_ReplyTimeoutRetriesOrFails :
    (awaiting exchange8 (opened true 9)).r.replyTimerArmed = true ∧
    (awaiting exchange8 (opened true 9)).r.pending = some exchange8 ∧ (opened true 9).r.replyTimerArmed = false := by decide

/-- No resend so far, and three. -/
theorem test_witness_RepeatableExchangeIsResentExactlyThreeTimes :
    (awaiting exchange8 (opened true 9)).r.pending = some exchange8 ∧
    (awaiting exchange8 (opened true 9)).r.replyTimerArmed = true ∧
    (awaiting exchange8 (opened true 9)).r.replyGranted = true ∧ (awaiting exchange8 (opened true 9)).r.queue = [] ∧
    exchange8.repeatable = true ∧ exchange8.retryCount ≤ 3 ∧ ({ exchange8 with retryCount := 3 }).retryCount ≤ 3 := by decide

theorem test_witness_SendMessageSendsOrReportsStatus :
    (built statusAA (opened true 8)).fb.msgType ≠ 1 ∧ (built statusAA (opened true 8)).fb.msgType ≠ 2 := by decide

/-- With this queue capacity. -/
def capacity (n : Nat) (s : State) : State := { s with params := { s.params with queueCapacity := some n } }

/-- Closed, open with infinite capacity, open with one place left. -/
theorem test_witness_QueueMessageAppendsAndDrains :
    (built statusAA State.reset).fb.msgType ≠ 1 ∧ (built statusAA State.reset).fb.msgType ≠ 2 ∧
    (built statusAA State.reset).r.isOpen = false ∧ (built statusAA (opened false 8)).r.isOpen = true ∧
    (built statusAA (opened false 8)).params.queueCapacity = none ∧
    (capacity 1 (built statusAA (opened false 8))).r.queue.length < 1 := by decide

/-- A host-built Nack, a full queue of capacity 1, and a message on an open channel. -/
theorem test_witness_OnlyReservedCommitsAreRefused :
    (built ⟨2, [], false, 500⟩ (opened true 0)).fb.msgType = 2 ∧
    (capacity 1 (queued [statusAA] (opened false 8))).r.isOpen = true ∧
    (capacity 1 (queued [statusAA] (opened false 8))).params.queueCapacity = some 1 ∧
    1 ≤ (capacity 1 (queued [statusAA] (opened false 8))).r.queue.length ∧
    (queued [statusAA] (opened false 8)).params.queueCapacity = none := by decide

/-- A full queue of finite capacity (U6). -/
theorem test_queueOverflow_refused :
    stop (exec .queueMessage (capacity 1 (queued [statusAA] (opened false 8)))) = some .queueOverflow := by decide

/-- An exchange in flight and a session half received: every clause of the invariant speaks here. -/
def busy : State :=
  queued [statusAA] { awaiting exchange8 (opened true 9) with p := ⟨.payload, 0x6099, 0, 1, 2, 1, [0x12], 0, true⟩ }

theorem test_busy_inv : busy.Inv := by
  constructor <;> simp [busy, queued, awaiting, opened, State.reset, resetParser, resetReliability, resetBuilder,
    beforePayload, exchange8, statusAA, notReplyType, Config.maxPayload, Config.maxRetries, Config.msgAck, Config.msgNack]

theorem test_witness_EveryStepKeepsInvariants :
    (given (.event [0x42]) busy).Inv ∧ (ran (step (given (.event [0x42]) busy))).isSome = true :=
  ⟨by obtain ⟨a, b, c, d, e, f, g, h, i, j⟩ := test_busy_inv; exact ⟨a, b, c, d, e, f, g, h, i, j⟩, by decide⟩

/-- A Request of no payload, with the gate false: a Nack is transmitted. -/
theorem test_witness_ClosedGateTransmitsOnlyReplies :
    (opened false 0).Inv ∧ (opened false 0).r.replyGranted = false ∧
    Instr.frameRequest 3 [] 0x3339 ≠ .setReplyGranted true ∧
    (ran (exec (.frameRequest 3 [] 0x3339) (opened false 0))).isSome = true :=
  ⟨by constructor <;> simp [opened, State.reset, resetParser, resetReliability, resetBuilder, beforePayload], by decide,
    by decide, by decide +kernel⟩

theorem test_witness_EndedExchangeIsAlwaysReported :
    Instr.closeChannel.isEvent = true ∧ Instr.closeChannel ≠ .reset ∧
    (awaiting exchange8 (opened true 9)).r.pending = some exchange8 ∧
    (ran (exec .closeChannel (awaiting exchange8 (opened true 9)))).isSome = true := by decide

theorem test_witness_OutputsOnlyGrowAndParametersStay : (ran (exec .crcValue State.reset)).isSome = true := by decide

theorem test_witness_OtherUnitsIgnoreTheCrcPort :
    Instr.sendMessage ≠ .reset ∧ Instr.sendMessage ≠ .crcInit ∧ (∀ b, Instr.sendMessage ≠ .crcUpdate b) ∧
    Instr.sendMessage ≠ .crcValue ∧ (ran (exec .sendMessage (built statusAA (opened true 8)))).isSome = true :=
  ⟨by decide, by decide, fun _ => by simp, by decide, by decide⟩

theorem test_witness_OnlyBuilderEventsWriteTheBuilder :
    Instr.queueMessage ≠ .reset ∧ (∀ ty r m, Instr.queueMessage ≠ .fbNew ty r m) ∧
    (∀ v, Instr.queueMessage ≠ .fbAppendU8 v) ∧ (∀ v, Instr.queueMessage ≠ .fbAppendU16 v) ∧
    (∀ v, Instr.queueMessage ≠ .fbAppendU32 v) ∧ (∀ u, Instr.queueMessage ≠ .fbAppendRaw u) ∧
    (ran (exec .queueMessage (built statusAA (opened true 8)))).isSome = true :=
  ⟨by decide, fun _ _ _ => by simp, fun _ => by simp, fun _ => by simp, fun _ => by simp, fun _ => by simp, by decide⟩

theorem test_witness_EventAdvancesTidByAtMostOne :
    (Instr.sendRequest 0).isEvent = true ∧ Instr.sendRequest 0 ≠ .reset ∧
    (ran (exec (.sendRequest 0) (opened true 255))).map (fun t => t.r.nextTid) = some 0 := by decide

/-- No input, a whole word, a word with bytes after its instruction, half a word, and a reserved word. -/
theorem test_witness_StepRunsTheDecodedWord :
    State.reset.inputs = [] ∧
    (given (.event [0x12]) State.reset).inputs = .event [0x12] :: [] ∧ decodeInput (.event [0x12]) = .ok .crcValue ∧
    decodeNext (.event [0x10, 0x12]) = .ok (.crcInit, [0x12]) ∧
    (given (.event [0x22, 0x34]) State.reset).inputs = .event [0x22, 0x34] :: [] ∧
    decodeNext (.event [0x22, 0x34]) = .error .truncated ∧
    (given (.event [0x04]) State.reset).inputs = .event [0x04] :: [] ∧
    decodeNext (.event [0x04]) = .error .reservedOpcode ∧ DecodeError.reservedOpcode ≠ .truncated :=
  ⟨rfl, rfl, rfl, rfl, rfl, rfl, rfl, rfl, by decide⟩

/-- A send and an append, each with its status among its outputs. -/
theorem test_witness_StatusesHaveTheirCodesAndCommands :
    (ran (exec (.sendRequest 0) State.reset)).map State.out = some (State.reset.out ++ [.ret .notOpen]) ∧
    (ran (exec (.fbAppendU8 0) State.reset)).map State.out = some (State.reset.out ++ [.ret .ok]) := by decide

/-- Bytes that begin with no frame, and bytes that begin with one. -/
theorem test_witness_WireBytesAlwaysReachTheParser :
    (given (.wire [0xA5, 0x5A]) (opened true 0)).inputs = .wire [0xA5, 0x5A] :: [] ∧ ([0xA5, 0x5A] : List Byte) ≠ [] ∧
    decodeNext (.wire [0xA5, 0x5A]) = .ok (.rxByte 0xA5, [0x5A]) ∧
    decodeNext (.wire [0x5A, 0xA5, 0x01, 0x02, 0x00, 0x00, 0x61, 0xE9, 0x5A]) = .ok (.frameAck 2 [] 0xE961, [0x5A]) :=
  ⟨rfl, by decide, rfl, rfl⟩

theorem test_witness_DecodeInvertsEncode :
    (Instr.frameDomain 4 9 [1, 2, 3] 0x335D).wellFormed = true ∧ (Instr.fbAppendRaw (List.replicate 512 0)).wellFormed = true := by
  decide +kernel

theorem test_witness_EncodeInvertsDecode : decode [0x22, 0x34, 0x12, 0x30] = .ok (.fbAppendU16 0x1234, [0x30]) := by rfl

/-- The smallest opcode, boolean and count that R92 reserves. -/
theorem test_witness_ReservedEventWordsAreRejected :
    (0x04 : Byte) ∉ ([0x00, 0x01, 0x02, 0x03, 0x10, 0x11, 0x12, 0x20, 0x21, 0x22, 0x23, 0x24, 0x30, 0x31, 0x32, 0x40, 0x41,
      0x42] : List Byte) ∧ 1 < (0x02 : Byte).toNat ∧ (u16Of 0x01 0x02).toNat = 513 ∧ (u16Of 0x00 0x02).toNat = 512 := by decide

end Sys2Proof.Tests
end

section
/-! SUPPORT. The CRC step on the two bytes of the accumulator (40_crc_engine.md R112, R118) and the CRC command port (R114 to
R116), then the statements about them. The one fact that is read off the ROM for injectivity is that the low byte of an entry
determines its index. -/

namespace Sys2Proof.Machine

/-! ## The table -/

theorem crcTable_length : crcTable.length = 256 := by decide +kernel

/-- Facts about all entries are checked in one walk along the listing, and reach `crcEntry` through this lemma. -/
theorem crcEntry_mem_zipIdx (i : Byte) : (crcEntry i, i.toNat) ∈ crcTable.zipIdx := by
  have h : i.toNat < crcTable.length := crcTable_length ▸ i.isLt
  rw [crcEntry, List.getD_eq_getElem _ _ h]
  exact List.mk_mem_zipIdx_iff_getElem?.mpr (List.getElem?_eq_getElem h)

/-- The index of the table entry with the low byte `y`. Written with `x = i ^^^ (i >>> 4)`, the low byte of entry `i` is
`x ^^^ (x <<< 5)`, and both exclusive-or shifts undo themselves on 8 bits. -/
def indexOfLowByte (y : Byte) : Byte :=
  let x := y ^^^ (y <<< 5)
  x ^^^ (x >>> 4)

theorem indexOfLowByte_of_mem_zipIdx :
    ∀ e ∈ crcTable.zipIdx, indexOfLowByte (lowByte e.1) = BitVec.ofNat 8 e.2 := by decide +kernel

theorem indexOfLowByte_crcEntry (i : Byte) : indexOfLowByte (lowByte (crcEntry i)) = i := by
  simpa using indexOfLowByte_of_mem_zipIdx _ (crcEntry_mem_zipIdx i)

/-- The 256 low bytes are all different (R118). -/
theorem lowByte_crcEntry_injective : Function.Injective (fun i : Byte => lowByte (crcEntry i)) :=
  Function.LeftInverse.injective indexOfLowByte_crcEntry

theorem bytes_xor_eq_index_of_mem_zipIdx :
    ∀ e ∈ crcTable.zipIdx, lowByte e.1 ^^^ highByte e.1 = BitVec.ofNat 8 e.2 → e.2 = 0x00 ∨ e.2 = 0xF0 := by
  decide +kernel

/-- The indices at which the two bytes of the entry fold to the index itself: the high bytes of the fixed points of a zero
byte. -/
theorem index_of_crcEntry_bytes_xor_eq {i : Byte} (h : lowByte (crcEntry i) ^^^ highByte (crcEntry i) = i) :
    i = 0x00 ∨ i = 0xF0 := by
  have hindex := bytes_xor_eq_index_of_mem_zipIdx _ (crcEntry_mem_zipIdx i) (by simpa using h)
  exact hindex.imp BitVec.eq_of_toNat_eq BitVec.eq_of_toNat_eq

/-! ## One step, byte by byte -/

theorem u16_eq_iff_bytes (v w : U16) : v = w ↔ lowByte v = lowByte w ∧ highByte v = highByte w := by
  constructor
  · rintro rfl
    exact ⟨rfl, rfl⟩
  · rintro ⟨hlow, hhigh⟩
    rw [← u16Of_low_high v, ← u16Of_low_high w, hlow, hhigh]

theorem lowByte_xor (v w : U16) : lowByte (v ^^^ w) = lowByte v ^^^ lowByte w := BitVec.extractLsb'_xor

theorem highByte_xor (v w : U16) : highByte (v ^^^ w) = highByte v ^^^ highByte w := BitVec.extractLsb'_xor

theorem lowByte_shiftLeft_eight (v : U16) : lowByte (v <<< 8) = 0 := by
  ext i hi
  simp [lowByte, hi]

theorem highByte_shiftLeft_eight (v : U16) : highByte (v <<< 8) = lowByte v := by
  ext i hi
  have : 8 + i < 16 := by omega
  simp [lowByte, highByte, this, ← BitVec.getLsbD_eq_getElem]

@[simp] theorem lowByte_crcStep (a : U16) (b : Byte) :
    lowByte (crcStep a b) = lowByte (crcEntry (highByte a ^^^ b)) := by
  simp [crcStep, lowByte_xor, lowByte_shiftLeft_eight]

@[simp] theorem highByte_crcStep (a : U16) (b : Byte) :
    highByte (crcStep a b) = lowByte a ^^^ highByte (crcEntry (highByte a ^^^ b)) := by
  simp [crcStep, highByte_xor, highByte_shiftLeft_eight]

/-- A step loses nothing but the split between the high byte of the accumulator and the data byte (R118). -/
theorem crcStep_eq_iff (a c : U16) (b d : Byte) :
    crcStep a b = crcStep c d ↔ lowByte a = lowByte c ∧ highByte a ^^^ b = highByte c ^^^ d := by
  rw [u16_eq_iff_bytes, lowByte_crcStep, lowByte_crcStep, highByte_crcStep, highByte_crcStep]
  constructor
  · rintro ⟨hlow, hhigh⟩
    have hindex : highByte a ^^^ b = highByte c ^^^ d := lowByte_crcEntry_injective hlow
    rw [hindex] at hhigh
    exact ⟨(BitVec.xor_left_inj _).mp hhigh, hindex⟩
  · rintro ⟨hlow, hindex⟩
    rw [hlow, hindex]
    exact ⟨rfl, rfl⟩

theorem crcStep_injective_acc (b : Byte) : Function.Injective (fun a : U16 => crcStep a b) := by
  intro a c h
  obtain ⟨hlow, hindex⟩ := (crcStep_eq_iff a c b b).mp h
  exact (u16_eq_iff_bytes a c).mpr ⟨hlow, (BitVec.xor_left_inj _).mp hindex⟩

theorem crcStep_injective_byte (a : U16) : Function.Injective (fun b : Byte => crcStep a b) := by
  intro b d h
  obtain ⟨-, hindex⟩ := (crcStep_eq_iff a a b d).mp h
  exact (BitVec.xor_right_inj _).mp hindex

/-- An accumulator that a zero byte leaves unchanged is determined by its high byte, whose entry holds the low one. -/
theorem crcStep_zero_eq_self_iff (a : U16) : crcStep a 0x00 = a ↔ a = 0x0000 ∨ a = 0xF01F := by
  constructor
  · intro h
    obtain ⟨hlow, hhigh⟩ := (u16_eq_iff_bytes _ _).mp h
    rw [lowByte_crcStep, xor_zero] at hlow
    rw [highByte_crcStep, xor_zero, ← hlow] at hhigh
    have ha : a = u16Of (lowByte (crcEntry (highByte a))) (highByte a) := by rw [hlow, u16Of_low_high]
    rcases index_of_crcEntry_bytes_xor_eq hhigh with h0 | hF0
    · rw [h0] at ha
      exact .inl ha
    · rw [hF0] at ha
      exact .inr ha
  · rintro (rfl | rfl) <;> decide

/-! ## Folding -/

/-- Different accumulators stay different, whatever bytes are folded into both. -/
theorem crcFold_injective_acc (u : List Byte) : Function.Injective (fun a : U16 => crcFold a u) := by
  induction u with
  | nil => exact Function.injective_id
  | cons b u ih => exact ih.comp (crcStep_injective_acc b)

theorem crcOf_append (u v : List Byte) : crcOf (u ++ v) = crcFold (crcOf u) v := crcFold_append _ u v

/-- One byte replaced changes the CRC of any byte sequence. -/
theorem crcOf_replace_byte_ne (pre post : List Byte) {b c : Byte} (h : b ≠ c) :
    crcOf (pre ++ b :: post) ≠ crcOf (pre ++ c :: post) := by
  intro heq
  rw [crcOf_append, crcOf_append, crcFold_cons, crcFold_cons] at heq
  have hstep : crcStep (crcOf pre) b = crcStep (crcOf pre) c := crcFold_injective_acc post heq
  exact h (crcStep_injective_byte _ hstep)

/-! ## The events of the CRC command port -/

@[simp] theorem exec_crcInit (s : State) : exec .crcInit s = .next (setAcc Config.crcSeed s) := rfl

@[simp] theorem exec_crcUpdate (b : Byte) (s : State) :
    exec (.crcUpdate b) s = .next (setAcc (crcStep s.crc.acc b) s) := rfl

@[simp] theorem exec_crcValue (s : State) : exec .crcValue s = .next (emit (.val s.crc.acc) s) := rfl

/-- CRC_UPDATE of each byte in turn folds them all into the accumulator. -/
theorem runsTo_crcUpdates (u : List Byte) (s : State) :
    RunsTo (u.map .crcUpdate) s (setAcc (crcFold s.crc.acc u) s) := by
  induction u generalizing s with
  | nil => rfl
  | cons b u ih => exact ⟨setAcc (crcStep s.crc.acc b) s, exec_crcUpdate b s, ih _⟩

/-- CRC_INIT and then the CRC_UPDATEs of `u` leave `CrcOf(u)` in the accumulator (R117). -/
theorem runsTo_crcInit_crcUpdates (u : List Byte) (s : State) :
    RunsTo (.crcInit :: u.map .crcUpdate) s (setAcc (crcOf u) s) :=
  ⟨setAcc Config.crcSeed s, exec_crcInit s, runsTo_crcUpdates u _⟩

/-- R116: the check value, that of the ASCII digits 1 to 9. -/
theorem crcOf_ascii_digits : crcOf [0x31, 0x32, 0x33, 0x34, 0x35, 0x36, 0x37, 0x38, 0x39] = 0x29B1 := by decide

end Sys2Proof.Machine

namespace Sys2Proof.Proofs

open Sys2Proof Sys2Proof.Machine

/-- Settles O6: the bytes before the changed one give equal accumulators, the changed byte makes them differ, and the bytes
after it keep them different. -/
theorem singleByteCorruptionChangesCrc : Obligations.SingleByteCorruptionChangesCrc := by
  intro t i pre post b c h
  have hlength : (pre ++ b :: post).length = (pre ++ c :: post).length := by simp
  unfold goodCrc
  rw [hlength, ← List.append_assoc, ← List.append_assoc]
  exact crcOf_replace_byte_ne _ post h

/-- Settles O8: the effect is `exec_crcUpdate`, the corner case `crcStep_zero_eq_self_iff`. -/
theorem crcUpdateFoldsOneByte : Obligations.CrcUpdateFoldsOneByte :=
  ⟨fun _ => rfl, fun s b => exec_crcUpdate b s, by decide, by decide, crcStep_zero_eq_self_iff⟩

/-- Settles O7. -/
theorem crcInitSeedsAccumulator : Obligations.CrcInitSeedsAccumulator :=
  ⟨rfl, exec_crcInit⟩

/-- Settles O9: from every state the nine events lead to the state with the check value in the accumulator. -/
theorem crcValueEmitsAccumulator : Obligations.CrcValueEmitsAccumulator := by
  refine ⟨rfl, exec_crcValue, fun s => ⟨_, runsTo_crcInit_crcUpdates _ s, ?_⟩⟩
  rw [exec_crcValue, setAcc_crc, crcOf_ascii_digits]
  rfl

end Sys2Proof.Proofs
end

section
/-! SUPPORT. The wire bytes of a frame, one by one, and their number (41_frame_codec.md R131), then the statement about them. -/

namespace Sys2Proof.Machine

/-- A payload that fits is serialized as the frame that carries its good CRC. -/
theorem serialize_eq_frameBytes_goodCrc (t i : Byte) {s : List Byte} (h : s.length ≤ 512) :
    serialize t i s = frameBytes t i s (goodCrc t i s) := serialize_eq t i s h

/-- The layout of R80, with both 16-bit fields low byte first. -/
theorem frameBytes_eq_layout (t i : Byte) (s : List Byte) (crc : U16) :
    frameBytes t i s crc =
      [0x5A, 0xA5, t, i, lowByte (BitVec.ofNat 16 s.length), highByte (BitVec.ofNat 16 s.length)] ++ s ++
        [lowByte crc, highByte crc] := rfl

theorem serialize_length (t i : Byte) {s : List Byte} (h : s.length ≤ 512) :
    (serialize t i s).length = 8 + s.length := by
  rw [serialize_eq_frameBytes_goodCrc t i h, frameBytes_length]

/-- R131: the CRC field of the example, an Ack with transaction id 2. -/
theorem goodCrc_ack_two : goodCrc 1 2 [] = 0xE961 := by decide

end Sys2Proof.Machine

namespace Sys2Proof.Proofs

open Sys2Proof Sys2Proof.Machine

/-- Settles O10: a payload that fits takes the defined branch of `serialize`, whose bytes are `frameBytes` with the good CRC;
the example is that layout at the CRC field E961. -/
theorem serializeLaysOutTheFrame : Obligations.SerializeLaysOutTheFrame := by
  refine ⟨fun t i s h => ⟨?layout, serialize_length t i h⟩, ?ackExample⟩
  case layout => rw [serialize_eq_frameBytes_goodCrc t i h, frameBytes_eq_layout]
  case ackExample =>
    rw [serialize_eq_frameBytes_goodCrc 1 2 (by decide), goodCrc_ack_two]
    rfl

end Sys2Proof.Proofs
end

section
/-! SUPPORT. What a received byte does in each of the parser states `Idle`, `MsgType`, `TransactionId`, `Payload` and `Crc1`, as
the state it leads to (42_byte_stream_parser.md R152, R154, R155, R159, R160), then the statements about them. -/

namespace Sys2Proof.Machine

/-! ## Which operation takes the byte -/

theorem exec_rxByte_open (b : Byte) {s : State} (h : s.r.isOpen = true) : exec (.rxByte b) s = .next (rxOpen b s) :=
  congrArg Host.Outcome.next (rxByte_open b s h)

section
variable (b : Byte) {s : State}

theorem rxOpen_idle (h : s.p.state = .idle) : rxOpen b s = rxIdle b s := by
  simp only [rxOpen, h]

theorem rxOpen_msgType (h : s.p.state = .msgType) : rxOpen b s = rxMsgType b s := by
  simp only [rxOpen, h]

theorem rxOpen_transactionId (h : s.p.state = .transactionId) : rxOpen b s = rxTransactionId b s := by
  simp only [rxOpen, h]

theorem rxOpen_payload (h : s.p.state = .payload) : rxOpen b s = rxPayload b s := by
  simp only [rxOpen, h]

theorem rxOpen_crc1 (h : s.p.state = .crc1) : rxOpen b s = rxCrc1 b s := by
  simp only [rxOpen, h]

end

/-! ## What the operation leaves -/

/-- The accumulator of a session that has just begun: the seed with the first preamble byte folded in (R152). -/
theorem crcStep_seed_5A : crcStep Config.crcSeed 0x5A = 0x1A4F := by decide

theorem rxIdle_5A (s : State) :
    rxIdle 0x5A s =
      { s with p := { s.p with state := .preamble2, crc := 0x1A4F, count := 0, payload := [], deadlineArmed := true } } := by
  rw [rxIdle, if_pos (show (0x5A : Byte) = Config.preamble1 from rfl), crcStep_seed_5A]
  rfl

theorem rxIdle_of_ne {b : Byte} (h : b ≠ 0x5A) (s : State) : rxIdle b s = s := if_neg h

theorem rxMsgType_eq (b : Byte) (s : State) :
    rxMsgType b s =
      { s with p := { s.p with state := .transactionId, msgType := b, crc := crcStep s.p.crc b } } := rfl

theorem rxTransactionId_eq (b : Byte) (s : State) :
    rxTransactionId b s = { s with p := { s.p with state := .length1, tid := b, crc := crcStep s.p.crc b } } := rfl

/-- The operation writes `p.state` only for the last byte; before it the parser is in `Payload` already. -/
theorem rxPayload_eq (b : Byte) {s : State} (h : s.p.state = .payload) :
    rxPayload b s =
      { s with
        p := { s.p with
          payload := s.p.payload ++ [b]
          count := s.p.count + 1
          crc := crcStep s.p.crc b
          state := if s.p.count + 1 = s.p.length.toNat then .crc1 else .payload } } := by
  unfold rxPayload
  by_cases hlast : s.p.count + 1 = s.p.length.toNat
  · rw [if_pos hlast, if_pos hlast]
    rfl
  · rw [if_neg hlast, if_neg hlast, ← h]
    rfl

theorem rxCrc1_eq (b : Byte) (s : State) :
    rxCrc1 b s = { s with p := { s.p with rxCrc := b.setWidth 16, state := .crc2 } } := rfl

end Sys2Proof.Machine

namespace Sys2Proof.Proofs

open Sys2Proof Sys2Proof.Machine

/-- Settles O20: the two branches of `rxPayload` are one state by `rxPayload_eq`. -/
theorem rxByteAccumulatesPayload : Obligations.RxByteAccumulatesPayload := by
  intro s b hopen hstate
  rw [exec_rxByte_open b hopen, rxOpen_payload b hstate, rxPayload_eq b hstate]

/-- Settles O16: the first preamble byte takes the one branch of `rxIdle`, any other byte the other. -/
theorem rxByteInIdleStartsSessionOnPreamble : Obligations.RxByteInIdleStartsSessionOnPreamble := by
  refine fun s hopen hstate => ⟨?starts, fun b hb => ?discards⟩
  case starts => rw [exec_rxByte_open _ hopen, rxOpen_idle _ hstate, rxIdle_5A s]
  case discards => rw [exec_rxByte_open b hopen, rxOpen_idle b hstate, rxIdle_of_ne hb s]

/-- Settles O18. -/
theorem rxByteStoresMsgTypeAndTid : Obligations.RxByteStoresMsgTypeAndTid := by
  refine fun s b hopen => ⟨fun hstate => ?msgType, fun hstate => ?tid⟩
  case msgType => rw [exec_rxByte_open b hopen, rxOpen_msgType b hstate, rxMsgType_eq]
  case tid => rw [exec_rxByte_open b hopen, rxOpen_transactionId b hstate, rxTransactionId_eq]

/-- Settles O21. -/
theorem rxByteStoresLowCrcByte : Obligations.RxByteStoresLowCrcByte := by
  intro s b hopen hstate
  rw [exec_rxByte_open b hopen, rxOpen_crc1 b hstate, rxCrc1_eq]

end Sys2Proof.Proofs
end

section
/-! SUPPORT. The table-driven CRC step is the bitwise one (40_crc_engine.md R111, R112, R121): both are linear, the high byte
goes through the table and the low byte is moved up untouched. Then the statements about the CRC engine that rest on it. -/

namespace Sys2Proof.Machine

/-! ## The listing -/

theorem entry_eq_tableEntry_of_mem_zipIdx :
    ∀ e ∈ crcTable.zipIdx, e.1 = tableEntry (BitVec.ofNat 8 e.2) := by decide +kernel

theorem crcEntry_eq_tableEntry (i : Byte) : crcEntry i = tableEntry i := by
  simpa using entry_eq_tableEntry_of_mem_zipIdx _ (crcEntry_mem_zipIdx i)

/-- No index is outside the listing, so the default value of the lookup is never used. -/
theorem crcTable_getElem?_eq_crcEntry (i : Byte) : crcTable[i.toNat]? = some (crcEntry i) := by
  have h : i.toNat < crcTable.length := crcTable_length ▸ i.isLt
  rw [crcEntry, List.getD_eq_getElem _ _ h, List.getElem?_eq_getElem h]

/-! ## The bitwise step is linear -/

theorem crcShift_xor (a c : U16) : crcShift (a ^^^ c) = crcShift a ^^^ crcShift c := by
  have hcancel (x y p : U16) : (x ^^^ p) ^^^ (y ^^^ p) = x ^^^ y := calc
    (x ^^^ p) ^^^ (y ^^^ p) = (x ^^^ y) ^^^ (p ^^^ p) := by ac_rfl
    _ = x ^^^ y := by simp
  unfold crcShift
  rw [BitVec.msb_xor, BitVec.shiftLeft_xor_distrib]
  cases a.msb <;> cases c.msb
  case false.false => rfl
  case false.true => exact BitVec.xor_assoc _ _ _
  case true.false =>
    change a <<< 1 ^^^ c <<< 1 ^^^ Config.crcPoly = a <<< 1 ^^^ Config.crcPoly ^^^ c <<< 1
    ac_rfl
  case true.true => exact (hcancel _ _ _).symm

theorem crcShift8_xor (a c : U16) : crcShift8 (a ^^^ c) = crcShift8 a ^^^ crcShift8 c := by
  simp only [crcShift8, crcShift_xor]

/-- While the top bit is clear no step folds the polynomial in. -/
theorem crcShift_setWidth_shiftLeft (x : Byte) {k : Nat} (h : k < 8) :
    crcShift (x.setWidth 16 <<< k) = x.setWidth 16 <<< (k + 1) := by
  have hmsb : (x.setWidth 16 <<< k).msb = false := by
    rw [BitVec.msb_eq_getLsbD_last, BitVec.getLsbD_shiftLeft, BitVec.getLsbD_setWidth,
      BitVec.getLsbD_of_ge x _ (by omega), Bool.and_false, Bool.and_false]
  rw [crcShift, hmsb, BitVec.shiftLeft_add]
  rfl

/-- Eight steps move a byte from the low half to the high half. -/
theorem crcShift8_setWidth (x : Byte) : crcShift8 (x.setWidth 16) = x.setWidth 16 <<< 8 := by
  have h0 : crcShift (x.setWidth 16) = x.setWidth 16 <<< 1 := by
    simpa using crcShift_setWidth_shiftLeft x (k := 0) (by decide)
  simp [crcShift8, h0, crcShift_setWidth_shiftLeft]

/-! ## The two steps agree -/

@[simp] theorem lowByte_setWidth (x : Byte) : lowByte (x.setWidth 16) = x := by
  ext i hi
  simp [lowByte, hi, show i < 16 by omega, BitVec.getLsbD_eq_getElem]

@[simp] theorem highByte_setWidth (x : Byte) : highByte (x.setWidth 16) = 0 := by
  ext i hi
  simp [highByte]

/-- A data byte folded into the high half, with the two bytes of the accumulator apart. -/
theorem xor_data_byte_eq (a : U16) (b : Byte) :
    a ^^^ (b.setWidth 16 <<< 8) = (lowByte a).setWidth 16 ^^^ ((highByte a ^^^ b).setWidth 16 <<< 8) := by
  rw [u16_eq_iff_bytes]
  simp [lowByte_xor, highByte_xor, lowByte_shiftLeft_eight, highByte_shiftLeft_eight]

theorem shiftLeft_eight_eq (a : U16) : a <<< 8 = (lowByte a).setWidth 16 <<< 8 := by
  rw [u16_eq_iff_bytes]
  simp [lowByte_shiftLeft_eight, highByte_shiftLeft_eight]

theorem crcStep_eq_crcStepBitwise (a : U16) (b : Byte) : crcStep a b = crcStepBitwise a b := by
  have htable : crcShift8 ((highByte a ^^^ b).setWidth 16 <<< 8) = crcEntry (highByte a ^^^ b) :=
    (crcEntry_eq_tableEntry _).symm
  rw [crcStepBitwise, xor_data_byte_eq, crcShift8_xor, crcShift8_setWidth, htable, crcStep, shiftLeft_eight_eq]

/-- Words of 16 bits are finitely many, so the injective step is onto. -/
theorem crcStep_bijective_acc (b : Byte) : Function.Bijective (fun a : U16 => crcStep a b) := by
  have : Finite U16 := Finite.of_injective BitVec.toFin fun _ _ => BitVec.toFin_inj.mp
  exact Finite.injective_iff_bijective.mp (crcStep_injective_acc b)

end Sys2Proof.Machine

namespace Sys2Proof.Proofs

open Sys2Proof Sys2Proof.Machine

/-- Settles O1: each entry is found at its index, and is what `TableEntry` computes. -/
theorem crcTableHoldsTableEntries : Obligations.CrcTableHoldsTableEntries := by
  refine ⟨crcTable_length, fun i => ?_⟩
  rw [crcTable_getElem?_eq_crcEntry, crcEntry_eq_tableEntry]

/-- Settles O2: the shifted accumulator, folded in twice, cancels. -/
theorem crcStepCombinesHighByteAndTable : Obligations.CrcStepCombinesHighByteAndTable := by
  refine ⟨fun a b => ?_, by decide, by decide, by decide⟩
  have hentry : crcStep a b ^^^ (a <<< 8) = crcEntry (highByte a ^^^ b) := by
    rw [crcStep, BitVec.xor_comm (a <<< 8), BitVec.xor_assoc, BitVec.xor_self, BitVec.xor_zero]
  rw [hentry]
  exact crcTable_getElem?_eq_crcEntry _

/-- Settles O3. -/
theorem crcStepIsBitwiseCrc : Obligations.CrcStepIsBitwiseCrc := crcStep_eq_crcStepBitwise

/-- Settles O4. -/
theorem crcStepIsBijectiveAndInjective : Obligations.CrcStepIsBijectiveAndInjective :=
  ⟨crcStep_bijective_acc, crcStep_injective_byte⟩

/-- Settles O5. -/
theorem crcOfIsIncremental : Obligations.CrcOfIsIncremental := ⟨rfl, crcOf_append⟩

end Sys2Proof.Proofs
end

section
/-! SUPPORT. What a received byte does in each of the parser states `Preamble2`, `Length1`, `Length2` and `Crc2`, as the state it
leads to (42_byte_stream_parser.md R153, R156, R157, R158, R161), and the run of the bytes of a whole frame (R101, R165). Then
the statements about them. -/

namespace Sys2Proof.Machine

/-! ## Which operation takes the byte -/

section
variable (b : Byte) {s : State}

theorem rxOpen_preamble2 (h : s.p.state = .preamble2) : rxOpen b s = rxPreamble2 b s := by
  simp only [rxOpen, h]

theorem rxOpen_length1 (h : s.p.state = .length1) : rxOpen b s = rxLength1 b s := by
  simp only [rxOpen, h]

theorem rxOpen_length2 (h : s.p.state = .length2) : rxOpen b s = rxLength2 b s := by
  simp only [rxOpen, h]

theorem rxOpen_crc2 (h : s.p.state = .crc2) : rxOpen b s = rxCrc2 b s := by
  simp only [rxOpen, h]

end

/-! ## What the operation leaves -/

theorem rxPreamble2_A5 (s : State) :
    rxPreamble2 0xA5 s = { s with p := { s.p with state := .msgType, crc := crcStep s.p.crc 0xA5 } } := rfl

theorem rxPreamble2_of_ne {b : Byte} (h : b ≠ 0xA5) (s : State) :
    rxPreamble2 b s =
      { s with p := { s.p with state := .idle, deadlineArmed := false }, out := s.out ++ [.log .badPreamble] } :=
  if_neg h

theorem rxLength1_eq (b : Byte) (s : State) :
    rxLength1 b s =
      { s with p := { s.p with state := .length2, length := b.setWidth 16, crc := crcStep s.p.crc b } } := rfl

theorem rxLength2_of_oversized {b : Byte} {s : State} (h : 512 < (withHighByte s.p.length b).toNat) :
    rxLength2 b s =
      { s with
        p := { s.p with
          state := .idle, length := withHighByte s.p.length b, crc := crcStep s.p.crc b, deadlineArmed := false }
        out := s.out ++ [.log .oversizedLength] } :=
  if_pos h

/-- A frame without payload goes on to its CRC field at once (R158). -/
theorem rxLength2_of_fits {b : Byte} {s : State} (h : (withHighByte s.p.length b).toNat ≤ 512) :
    rxLength2 b s =
      { s with
        p := { s.p with
          state := if 0 = (withHighByte s.p.length b).toNat then .crc1 else .payload
          length := withHighByte s.p.length b
          crc := crcStep s.p.crc b } } := by
  have hsmall : ¬ Config.maxPayload < (withHighByte s.p.length b).toNat := Nat.not_lt.mpr h
  by_cases hzero : withHighByte s.p.length b = 0
  · rw [if_pos (by rw [hzero]; rfl)]
    exact (if_neg hsmall).trans (if_pos hzero)
  · rw [if_neg fun h0 => hzero (BitVec.eq_of_toNat_eq h0.symm)]
    exact (if_neg hsmall).trans (if_neg hzero)

/-- The parser's registers once the second CRC byte has been taken (R161). -/
def crcTaken (b : Byte) (q : Parser) : Parser :=
  { q with rxCrc := withHighByte q.rxCrc b, state := .idle, deadlineArmed := false }

theorem rxCrc2_of_match {b : Byte} {s : State} (h : withHighByte s.p.rxCrc b = s.p.crc) :
    rxCrc2 b s = dispatch (receivedFrame s.p) { s with p := crcTaken b s.p } :=
  if_pos h

theorem rxCrc2_of_mismatch {b : Byte} {s : State} (h : withHighByte s.p.rxCrc b ≠ s.p.crc) :
    rxCrc2 b s = { s with p := crcTaken b s.p, out := s.out ++ [.log .crcMismatch] } :=
  if_neg h

theorem exec_frameDeadlineFire (s : State) :
    exec .frameDeadlineFire s =
      .next (if s.p.deadlineArmed = true then
        { s with p := { s.p with state := .idle, deadlineArmed := false }, out := s.out ++ [.log .frameDeadline] }
      else s) := by
  change execFrameDeadlineFire s = _
  unfold execFrameDeadlineFire
  split <;> rfl

/-! ## A whole frame -/

/-- A low byte that was stored alone, and then its high byte, give the assembled field (R81). -/
@[simp] theorem withHighByte_low_high (v : U16) : withHighByte ((lowByte v).setWidth 16) (highByte v) = v :=
  u16Of_low_high v

/-- The parser's registers when header and payload of a frame have been received: it waits for the CRC field, with the CRC of
those bytes. -/
def bodyReceived (msgType tid : Byte) (payload : List Byte) (q : Parser) : Parser :=
  { q with
    state := .crc1
    crc := goodCrc msgType tid payload
    msgType := msgType
    tid := tid
    length := BitVec.ofNat 16 payload.length
    count := payload.length
    payload := payload
    deadlineArmed := true }

section
variable {s : State} (hopen : s.r.isOpen = true)
include hopen

/-- The six header bytes start a session in which nothing of the payload has been counted. -/
theorem rxBytes_headerBytes (hidle : s.p.state = .idle) (t i : Byte) {n : U16} (hn : n.toNat ≤ 512) :
    rxBytes (headerBytes t i n) s =
      { s with
        p := { s.p with
          state := if 0 = n.toNat then .crc1 else .payload
          crc := crcOf (headerBytes t i n)
          msgType := t
          tid := i
          length := n
          count := 0
          payload := []
          deadlineArmed := true } } := by
  have hcrc : crcOf (headerBytes t i n) =
      crcFold 0x1A4F [Config.preamble2, t, i, lowByte n, highByte n] := by
    rw [← crcStep_seed_5A]; rfl
  rw [hcrc, headerBytes]
  simp only [rxBytes_cons, rxBytes_nil, crcFold_cons, crcFold_nil, Config.preamble1, Config.preamble2, hopen, hidle,
    rxByte_open, rxOpen_idle, rxIdle_5A, rxOpen_preamble2, rxPreamble2_A5, rxOpen_msgType, rxMsgType_eq,
    rxOpen_transactionId, rxTransactionId_eq, rxOpen_length1, rxLength1_eq, rxOpen_length2, rxLength2_of_fits, hn,
    withHighByte_low_high]

/-- The bytes that the declared length still asks for complete the payload; there may be none. -/
theorem rxBytes_payload (u : List Byte)
    (hstate : s.p.state = if s.p.count = s.p.length.toNat then .crc1 else .payload)
    (hcount : s.p.count + u.length = s.p.length.toNat) :
    rxBytes u s =
      { s with
        p := { s.p with
          state := .crc1
          payload := s.p.payload ++ u
          count := s.p.count + u.length
          crc := crcFold s.p.crc u } } := by
  induction u generalizing s with
  | nil =>
    rw [if_pos (by simpa using hcount)] at hstate
    simp [← hstate]
  | cons b u ih =>
    rw [List.length_cons] at hcount
    rw [if_neg (by omega)] at hstate
    rw [rxBytes_cons, rxByte_open b s hopen, rxOpen_payload b hstate, rxPayload_eq b hstate, ih]
    · simp [Nat.add_assoc, Nat.add_comm u.length]
    · exact hopen
    · rfl
    · simp only; omega

theorem rxBytes_header_payload (hidle : s.p.state = .idle) (t i : Byte) {payload : List Byte}
    (hfits : payload.length ≤ 512) :
    rxBytes (headerBytes t i (BitVec.ofNat 16 payload.length) ++ payload) s =
      { s with p := bodyReceived t i payload s.p } := by
  have hlength : (BitVec.ofNat 16 payload.length).toNat = payload.length := length_field_toNat payload hfits
  rw [rxBytes_append, rxBytes_headerBytes hopen hidle t i (by omega), rxBytes_payload]
  · simp [bodyReceived, goodCrc, crcOf_append]
  · exact hopen
  · rfl
  · simpa using hlength.symm

/-- The last byte of a frame is taken in `Crc2`, where the CRC field is complete. -/
theorem rxBytes_frameBytes_eq_rxCrc2 (hidle : s.p.state = .idle) (t i : Byte) {payload : List Byte} (crc : U16)
    (hfits : payload.length ≤ 512) :
    rxBytes (frameBytes t i payload crc) s =
      rxCrc2 (highByte crc) { s with
        p := { bodyReceived t i payload s.p with rxCrc := (lowByte crc).setWidth 16, state := .crc2 } } := by
  rw [frameBytes, rxBytes_append, rxBytes_header_payload hopen hidle t i hfits, bytesOfU16]
  have hcrc1 : (bodyReceived t i payload s.p).state = .crc1 := rfl
  simp only [rxBytes_cons, rxBytes_nil, rxByte_open, rxOpen_crc1, rxCrc1_eq, rxOpen_crc2, hopen, hcrc1]

/-- A frame with the right CRC field is dispatched once, from the idle parser (R161). -/
theorem rxBytes_good_frame (hidle : s.p.state = .idle) (t i : Byte) {payload : List Byte} (hfits : payload.length ≤ 512) :
    rxBytes (frameBytes t i payload (goodCrc t i payload)) s =
      dispatch ⟨t, i, payload⟩ (afterFrame t i payload (goodCrc t i payload) s) := by
  rw [rxBytes_frameBytes_eq_rxCrc2 hopen hidle t i _ hfits, rxCrc2_of_match (by simp [bodyReceived])]
  simp [receivedFrame, crcTaken, bodyReceived, afterFrame]

/-- A frame with another CRC field is discarded with the log line alone (R161). -/
theorem rxBytes_bad_frame (hidle : s.p.state = .idle) (t i : Byte) {payload : List Byte} {crc : U16}
    (hfits : payload.length ≤ 512) (hbad : crc ≠ goodCrc t i payload) :
    rxBytes (frameBytes t i payload crc) s = saying [.log .crcMismatch] (afterFrame t i payload crc s) := by
  rw [rxBytes_frameBytes_eq_rxCrc2 hopen hidle t i _ hfits, rxCrc2_of_mismatch (by simpa [bodyReceived] using hbad)]
  simp [saying, crcTaken, bodyReceived, afterFrame]

end

theorem rxBytes_closed (u : List Byte) {s : State} (h : s.r.isOpen = false) : rxBytes u s = s := by
  induction u with
  | nil => rfl
  | cons b u ih => rw [rxBytes_cons, rxByte_closed b s h, ih]

/-! ## The frame rows -/

theorem exec_rxByte (b : Byte) (s : State) : exec (.rxByte b) s = .next (rxByte b s) := rfl

/-- Every frame row is the run of the bytes of its encoding (R101). -/
theorem exec_of_isEvent_false : ∀ {i : Instr}, i.isEvent = false → ∀ s, exec i s = .next (rxBytes (encode i) s)
  | .frameStatus _ _ _, _, _ => rfl
  | .frameAck _ _ _, _, _ => rfl
  | .frameNack _ _ _, _, _ => rfl
  | .frameRequest _ _ _, _, _ => rfl
  | .frameDomain _ _ _ _, _, _ => rfl

end Sys2Proof.Machine

namespace Sys2Proof.Proofs

open Sys2Proof Sys2Proof.Machine

/-- Settles O25: the bytes of a payload that fits are those of a frame with the good CRC field. -/
theorem serializedFrameIsDispatchedOnce : Obligations.SerializedFrameIsDispatchedOnce := by
  intro s t i payload hopen hidle hfits
  rw [serialize_eq_frameBytes_goodCrc t i hfits, ← rxBytes_good_frame hopen hidle t i hfits]
  exact runsTo_rxBytes _ s

/-- Settles O29. -/
theorem corruptedFrameIsDroppedSilently : Obligations.CorruptedFrameIsDroppedSilently := by
  intro s tid payload crc hopen hidle hfits
  have hdropped (t : Byte) (hbad : crc ≠ goodCrc t tid payload) :
      Host.Outcome.next (rxBytes (frameBytes t tid payload crc) s) =
        (.next (saying [.log .crcMismatch] (afterFrame t tid payload crc s)) : Host.Outcome State Fault Refusal) :=
    congrArg _ (rxBytes_bad_frame hopen hidle t tid hfits hbad)
  exact ⟨hdropped 0, hdropped 1, hdropped 2, hdropped 3, hdropped⟩

/-- Settles O15. -/
theorem receptionWhileClosedChangesNothing : Obligations.ReceptionWhileClosedChangesNothing := by
  intro s hclosed
  have hframe (t tid : Byte) (payload : List Byte) (crc : U16) :
      Host.Outcome.next (rxBytes (frameBytes t tid payload crc) s) = (.next s : Host.Outcome State Fault Refusal) :=
    congrArg _ (rxBytes_closed _ hclosed)
  exact ⟨fun b => congrArg _ (rxByte_closed b s hclosed), hframe _, hframe _, hframe _, hframe _, hframe⟩

/-- Settles O17. -/
theorem rxByteInPreamble2AcceptsOnlyA5 : Obligations.RxByteInPreamble2AcceptsOnlyA5 := by
  refine fun s hopen hstate => ⟨?accepts, fun b hb => ?rejects⟩
  case accepts => rw [exec_rxByte_open _ hopen, rxOpen_preamble2 _ hstate, rxPreamble2_A5]
  case rejects => rw [exec_rxByte_open b hopen, rxOpen_preamble2 b hstate, rxPreamble2_of_ne hb]

/-- Settles O19: a length of 0 and one of 1 to 512 are the two branches of `rxLength2_of_fits`. -/
theorem rxByteAssemblesAndValidatesLength : Obligations.RxByteAssemblesAndValidatesLength := by
  refine fun s b hopen => ⟨fun hstate => ?length1, fun hstate => ?length2⟩
  case length1 => rw [exec_rxByte_open b hopen, rxOpen_length1 b hstate, rxLength1_eq]
  case length2 =>
    rw [exec_rxByte_open b hopen, rxOpen_length2 b hstate]
    refine ⟨fun hbig => ?_, fun hzero => ?_, fun hpos hfits => ?_⟩
    · exact congrArg _ (rxLength2_of_oversized hbig)
    · rw [rxLength2_of_fits (by simp only [withHighByte]; omega), withHighByte, if_pos hzero.symm]
    · rw [rxLength2_of_fits hfits, withHighByte, if_neg (Nat.ne_of_lt hpos)]

/-- Settles O22. -/
theorem rxByteComparesCrcAndDispatches : Obligations.RxByteComparesCrcAndDispatches := by
  intro s b hopen hstate
  rw [exec_rxByte_open b hopen, rxOpen_crc2 b hstate]
  exact ⟨fun h => congrArg _ (rxCrc2_of_match h), fun h => congrArg _ (rxCrc2_of_mismatch h)⟩

/-- Settles O23. -/
theorem frameDeadlineDropsSession : Obligations.FrameDeadlineDropsSession := exec_frameDeadlineFire

/-- Settles O24. -/
theorem frameRowIsTheRunOfItsBytes : Obligations.FrameRowIsTheRunOfItsBytes :=
  fun _ s hframe => ⟨_, exec_of_isEvent_false hframe s, runsTo_rxBytes _ s⟩

end Sys2Proof.Proofs
end

section
/-! SUPPORT. The host's commands, the frame builder's events and the reply timer, each said once as the state it leads to
(41_frame_codec.md section 4, 43_reliability_commands.md, 44_reliability_dispatch.md R230, 70_reset_and_hazards.md R290). Then
the statements about them. -/

namespace Sys2Proof.Machine

/-! ## The frame builder -/

theorem exec_fbNew (t : Byte) (r : Bool) (m : U16) (s : State) :
    exec (.fbNew t r m) s = .next (setBuilder ⟨t, [], r, timeoutOf m⟩ s) := rfl

theorem exec_fbAppendU8 (v : Byte) (s : State) : exec (.fbAppendU8 v) s = .next (afterAppend [v] s) :=
  congrArg _ (fbAppend_eq _ s)

theorem exec_fbAppendU16 (v : U16) (s : State) : exec (.fbAppendU16 v) s = .next (afterAppend (bytesOfU16 v) s) :=
  congrArg _ (fbAppend_eq _ s)

theorem exec_fbAppendU32 (v : U32) (s : State) : exec (.fbAppendU32 v) s = .next (afterAppend (bytesOfU32 v) s) :=
  congrArg _ (fbAppend_eq _ s)

theorem exec_fbAppendRaw (u : List Byte) (s : State) : exec (.fbAppendRaw u) s = .next (afterAppend u s) :=
  congrArg _ (fbAppend_eq _ s)

theorem afterAppend_fb_of_fits {u : List Byte} {s : State} (h : s.fb.payload.length + u.length ≤ 512) :
    (afterAppend u s).fb = { s.fb with payload := s.fb.payload ++ u } := by
  rw [afterAppend, if_pos h]

/-! ## Opening, closing, the gate, reset -/

theorem exec_reset (s : State) : exec .reset s = .next (resetWith (Config.resetDraw s.resetDraws) s) := rfl

theorem exec_openChannel (s : State) : exec .openChannel s = .next (setOpen true s) := by
  change Host.Outcome.next (if s.r.isOpen = true then s else setOpen true s) = _
  split
  next hopen => rw [setOpen, ← hopen]
  next => rfl

/-- The failure report of CLOSE for the exchange that it ends, if there is one (R182). -/
def closeReport (s : State) : List Output :=
  match s.r.pending with
  | some x => [.messageCompleted x.msgType x.tid false]
  | none => []

/-- What CLOSE leaves of an open channel (R182). -/
def afterClose (s : State) : State :=
  { s with
    p := { s.p with state := .idle, count := 0, payload := [], deadlineArmed := false }
    r := { s.r with isOpen := false, replyGranted := false, pending := none, queue := [], replyTimerArmed := false }
    out := s.out ++ closeReport s }

theorem teardown_eq (s : State) : teardown s = afterClose s := by
  unfold teardown abortPending afterClose closeReport
  cases hpending : s.r.pending with
  | none => simp [hpending, parserReset, setOpen, setGate, setQueue, cancelReply, setParser, cancelFrame]
  | some x =>
    simp [hpending, parserReset, setOpen, setGate, setQueue, setPending, emit, cancelReply, setParser, cancelFrame]

theorem exec_closeChannel (s : State) :
    exec .closeChannel s = .next (if s.r.isOpen = true then afterClose s else s) := by
  rw [← teardown_eq]
  rfl

theorem exec_setReplyGranted_false (s : State) : exec (.setReplyGranted false) s = .next (setGate false s) := rfl

theorem exec_setReplyGranted_true (s : State) :
    exec (.setReplyGranted true) s = .next (afterDrain (setGate true s)) :=
  congrArg _ (drain_eq _)

/-! ## Sending -/

theorem exec_sendMessage_refused {s : State} (h : s.fb.msgType = 1 ∨ s.fb.msgType = 2) :
    exec .sendMessage s = .refused .hostBuiltReply :=
  if_pos ((isReplyType_iff _).mpr h)

theorem exec_sendMessage {s : State} (h : ¬ (s.fb.msgType = 1 ∨ s.fb.msgType = 2)) :
    exec .sendMessage s = .next (afterDirectSend s.fb s) := by
  rw [← directSend_eq]
  exact if_neg fun hreply => h ((isReplyType_iff _).mp hreply)

theorem exec_sendRequest (q : Byte) (s : State) :
    exec (.sendRequest q) s = .next (afterDirectSend (requestDescriptor q s) s) :=
  congrArg _ (directSend_eq _ s)

theorem exec_queueMessage_refused {s : State} (h : s.fb.msgType = 1 ∨ s.fb.msgType = 2) :
    exec .queueMessage s = .refused .hostBuiltReply :=
  if_pos ((isReplyType_iff _).mpr h)

theorem queueFull_iff (s : State) :
    queueFull s = true ↔ ∃ n, s.params.queueCapacity = some n ∧ n ≤ s.r.queue.length := by
  unfold queueFull
  cases s.params.queueCapacity <;> simp

/-- QUEUE_MESSAGE of a frame that the host may build (R192). -/
theorem exec_queueMessage {s : State} (h : ¬ (s.fb.msgType = 1 ∨ s.fb.msgType = 2)) :
    exec .queueMessage s =
      if s.r.isOpen = false then .next (saying [.log .queueWhileClosed] s)
      else if queueFull s = true then .refused .queueOverflow
      else .next (afterDrain (setQueue (s.r.queue ++ [s.fb]) s)) := by
  rw [← drain_eq]
  refine (if_neg fun hreply => h ((isReplyType_iff _).mp hreply)).trans ?_
  cases hopen : s.r.isOpen
  · exact if_pos rfl
  · exact if_neg (by decide)

/-! ## The reply timer -/

theorem exec_replyTimeoutFire_stale {s : State} (h : s.r.replyTimerArmed = false) :
    exec .replyTimeoutFire s = .next s :=
  if_neg (by rw [h]; decide)

theorem exec_replyTimeoutFire_pending {s : State} {x : Pending} (harmed : s.r.replyTimerArmed = true)
    (hpending : s.r.pending = some x) : exec .replyTimeoutFire s = .next (afterRetry x s) := by
  change execReplyTimeoutFire s = _
  rw [execReplyTimeoutFire, if_pos harmed, hpending]
  simp only [retryOrFail_eq]
  rfl

theorem exec_replyTimeoutFire_empty {s : State} (harmed : s.r.replyTimerArmed = true) (hpending : s.r.pending = none) :
    exec .replyTimeoutFire s = .next (cancelReply s) := by
  change execReplyTimeoutFire s = _
  rw [execReplyTimeoutFire, if_pos harmed, hpending]

/-- A retry that the count and the gate allow (R228). -/
theorem afterRetry_resend {x : Pending} {s : State} (hrepeatable : x.repeatable = true) (hcount : x.retryCount < 3)
    (hgate : s.r.replyGranted = true ∨ x.msgType = 1 ∨ x.msgType = 2) :
    afterRetry x s = transmitExchange (countRetry x) (setPending (some (countRetry x)) s) :=
  if_pos ⟨hrepeatable, hcount, hgate⟩

/-- The last resend used up, the exchange fails (R228). -/
theorem afterRetry_exhausted {x : Pending} {s : State} (hcount : x.retryCount = 3) :
    afterRetry x s = afterExchange [.messageCompleted x.msgType x.tid false] s :=
  if_neg fun h => absurd h.2.1 (by omega)

theorem afterDrain_of_queue_nil {s : State} (h : s.r.queue = []) : afterDrain s = s := by
  unfold afterDrain
  rw [h]

theorem afterExchange_of_queue_nil (outs : List Output) {s : State} (h : s.r.queue = []) :
    afterExchange outs s = saying outs (releaseSlot s) :=
  afterDrain_of_queue_nil h

end Sys2Proof.Machine

namespace Sys2Proof.Proofs

open Sys2Proof Sys2Proof.Machine

/-- Settles O12. -/
theorem fbNewStartsFreshFrame : Obligations.FbNewStartsFreshFrame := fun s t r m => exec_fbNew t r m s

/-- Settles O13. -/
theorem fbAppendIsLittleEndianAllOrNothing : Obligations.FbAppendIsLittleEndianAllOrNothing := fun s =>
  ⟨fun v => exec_fbAppendU8 v s, fun v => exec_fbAppendU16 v s, fun v => exec_fbAppendU32 v s,
    fun u => exec_fbAppendRaw u s⟩

/-- Settles O14: each of the three ways appends the same two bytes, which fit. -/
theorem scalarAppendBuildsTheSameFrameAsItsBytes : Obligations.ScalarAppendBuildsTheSameFrameAsItsBytes := by
  intro s b0 b1 hfits
  have hpair : (afterAppend [b0, b1] s).fb = { s.fb with payload := s.fb.payload ++ [b0, b1] } :=
    afterAppend_fb_of_fits hfits
  have hfirst : (afterAppend [b0] s).fb = { s.fb with payload := s.fb.payload ++ [b0] } :=
    afterAppend_fb_of_fits (by simp only [List.length_singleton]; omega)
  have hsecond : (afterAppend [b1] (afterAppend [b0] s)).fb = { s.fb with payload := s.fb.payload ++ [b0, b1] } := by
    rw [afterAppend_fb_of_fits (by simp [hfirst]; omega), hfirst]
    simp
  have hu16 : exec (.fbAppendU16 (u16Of b0 b1)) s = .next (afterAppend [b0, b1] s) := by
    rw [exec_fbAppendU16, bytesOfU16, lowByte_u16Of, highByte_u16Of]
  exact ⟨_, _, _, hu16, ⟨_, exec_fbAppendU8 b0 s, _, exec_fbAppendU8 b1 _, rfl⟩, exec_fbAppendRaw _ s,
    hpair.trans hsecond.symm, rfl, by rw [hpair]⟩

/-- Settles O34. -/
theorem replyTimeoutRetriesOrFails : Obligations.ReplyTimeoutRetriesOrFails := fun _ =>
  ⟨fun _ harmed hpending => exec_replyTimeoutFire_pending harmed hpending, exec_replyTimeoutFire_stale⟩

/-- Settles O35, by induction on the resends that are left; each one leaves the hypotheses true of the exchange with one more
resend counted. -/
theorem repeatableExchangeIsResentExactlyThreeTimes : Obligations.RepeatableExchangeIsResentExactlyThreeTimes := by
  intro s x hpending harmed hgate hqueue hrepeatable hcount
  generalize hleft : 3 - x.retryCount = left
  induction left generalizing s x with
  | zero =>
    have hthree : x.retryCount = 3 := by omega
    refine ⟨s, _, rfl, by simp, by rw [hpending, ← hthree], exec_replyTimeoutFire_pending harmed hpending, ?_⟩
    rw [afterRetry_exhausted hthree, afterExchange_of_queue_nil _ hqueue]
    exact ⟨rfl, rfl, rfl⟩
  | succ left ih =>
    have hresend := afterRetry_resend (s := s) hrepeatable (by omega) (.inl hgate)
    obtain ⟨t, u, hruns, hout, htpending, hlast, hu⟩ :=
      ih (transmitExchange (countRetry x) (setPending (some (countRetry x)) s)) (countRetry x) rfl rfl hgate hqueue
        hrepeatable (show x.retryCount + 1 ≤ 3 by omega) (show 3 - (x.retryCount + 1) = left by omega)
    refine ⟨t, u, ⟨_, ?_, hruns⟩, ?_, htpending, hlast, hu⟩
    · rw [exec_replyTimeoutFire_pending harmed hpending, hresend]
    · rw [hout, List.replicate_succ]
      simp [transmitExchange, countRetry]

/-- Settles O36. -/
theorem openSetsOnlyTheOpenFlag : Obligations.OpenSetsOnlyTheOpenFlag := exec_openChannel

/-- Settles O37. -/
theorem closeTearsDownTheSession : Obligations.CloseTearsDownTheSession := exec_closeChannel

/-- Settles O38. -/
theorem setReplyGrantedWritesGateAndDrains : Obligations.SetReplyGrantedWritesGateAndDrains := fun s =>
  ⟨exec_setReplyGranted_false s, exec_setReplyGranted_true s⟩

/-- Settles O39. -/
theorem sendMessageSendsOrReportsStatus : Obligations.SendMessageSendsOrReportsStatus := fun _ hack hnack =>
  exec_sendMessage (not_or.mpr ⟨hack, hnack⟩)

/-- Settles O40. -/
theorem sendRequestSendsOneByteRequest : Obligations.SendRequestSendsOneByteRequest := fun s q =>
  exec_sendRequest q s

/-- Settles O41: a queue below every finite capacity is not full. -/
theorem queueMessageAppendsAndDrains : Obligations.QueueMessageAppendsAndDrains := by
  intro s hack hnack
  rw [exec_queueMessage (not_or.mpr ⟨hack, hnack⟩)]
  refine ⟨fun hclosed => if_pos hclosed, fun hopen hroom => ?_⟩
  have hnotFull : ¬ queueFull s = true := by
    rw [queueFull_iff]
    rintro ⟨n, hcapacity, hn⟩
    exact absurd (hroom n hcapacity) (by omega)
  rw [if_neg (by rw [hopen]; decide), if_neg hnotFull]
  rfl

/-- Settles O43. -/
theorem resetEventRestoresResetValues : Obligations.ResetEventRestoresResetValues := fun s => ⟨_, exec_reset s⟩

/-- Settles O44. -/
theorem resetStateHasTheSpecifiedValues : Obligations.ResetStateHasTheSpecifiedValues :=
  ⟨rfl, rfl, rfl, rfl, rfl, rfl, rfl, rfl, rfl, rfl, rfl⟩

end Sys2Proof.Proofs
end

section
/-! SUPPORT. The case lemmas of the send path and of the inbound dispatch: which of the few state changes each procedure makes
(43_reliability_commands.md section 3, 44_reliability_dispatch.md). Then the statements about received frames. -/

namespace Sys2Proof.Machine

/-! ## The state changes they are made of -/

/-- The descriptor `d` transmitted with the next id, as the new Pending Exchange (R187, R190). -/
def startExchange (d : Descriptor) (s : State) : State := transmitExchange (exchangeOf d s.r.nextTid) (createExchange d s)

/-- The Pending Exchange `x` transmitted again, one more resend counted (R228). -/
def resend (x : Pending) (s : State) : State := transmitExchange (countRetry x) (setPending (some (countRetry x)) s)

/-! ## Which of them a procedure makes -/

/-- `drain` (R190) does nothing, or starts the exchange of the head of the queue. -/
theorem afterDrain_cases (s : State) :
    afterDrain s = s ∧ (s.r.queue = [] ∨ ¬ (s.r.isOpen = true ∧ s.r.pending = none ∧ s.r.replyGranted = true)) ∨
    ∃ d rest, s.r.queue = d :: rest ∧ (s.r.isOpen = true ∧ s.r.pending = none ∧ s.r.replyGranted = true) ∧
      afterDrain s = startExchange d (setQueue rest s) := by
  cases hqueue : s.r.queue with
  | nil => exact .inl ⟨afterDrain_of_queue_nil hqueue, .inl rfl⟩
  | cons d rest =>
    unfold afterDrain
    rw [hqueue]
    by_cases hcan : s.r.isOpen = true ∧ s.r.pending = none ∧ s.r.replyGranted = true
    · exact .inr ⟨d, rest, rfl, hcan, if_pos hcan⟩
    · exact .inl ⟨if_neg hcan, .inr hcan⟩

theorem afterDrain_of_gate_shut {s : State} (h : s.r.replyGranted = false) : afterDrain s = s := by
  rcases afterDrain_cases s with ⟨heq, -⟩ | ⟨d, rest, -, ⟨-, -, hgate⟩, -⟩
  · exact heq
  · rw [h] at hgate
    cases hgate

theorem afterExchange_eq (outs : List Output) (s : State) :
    afterExchange outs s = afterDrain (saying outs (releaseSlot s)) := rfl

/-- A retry (R228) is a resend, or the failure of the exchange. -/
theorem afterRetry_cases (x : Pending) (s : State) :
    (x.retryCount < 3 ∧ (s.r.replyGranted = true ∨ x.msgType = 1 ∨ x.msgType = 2) ∧ afterRetry x s = resend x s) ∨
    afterRetry x s = afterExchange [.messageCompleted x.msgType x.tid false] s := by
  by_cases hcan : x.repeatable = true ∧ x.retryCount < 3 ∧ (s.r.replyGranted = true ∨ x.msgType = 1 ∨ x.msgType = 2)
  · obtain ⟨hrepeatable, hcount, hgate⟩ := hcan
    exact .inl ⟨hcount, hgate, afterRetry_resend hrepeatable hcount hgate⟩
  · exact .inr (if_neg hcan)

/-- A direct send (R187) reports a status alone, starts an exchange, or is rejected at the gate, where the id it had been given
may be used up. -/
theorem afterDirectSend_cases (d : Descriptor) (s : State) :
    (∃ status : Status, status.code ≤ 3 ∧ afterDirectSend d s = emit (.ret status) s) ∨
    (s.r.isOpen = true ∧ s.r.pending = none ∧ (s.r.replyGranted = true ∨ d.msgType = 1 ∨ d.msgType = 2) ∧
      afterDirectSend d s = emit (.ret .ok) (startExchange d s)) ∨
    ∃ tid, (tid = s.r.nextTid ∨ tid = s.r.nextTid + 1) ∧
      afterDirectSend d s = emit (.ret .gateClosed) (setNextTid tid s) := by
  unfold afterDirectSend
  by_cases hclosed : s.r.isOpen = false
  · rw [if_pos hclosed]
    exact .inl ⟨.notOpen, by decide, rfl⟩
  by_cases hpending : s.r.pending = none
  case neg =>
    rw [if_neg hclosed, if_pos hpending]
    exact .inl ⟨.msgInProgress, by decide, rfl⟩
  rw [if_neg hclosed, if_neg (not_not_intro hpending)]
  by_cases hgate : s.r.replyGranted = true ∨ d.msgType = 1 ∨ d.msgType = 2
  · rw [if_pos hgate]
    refine .inr (.inl ⟨by simpa using hclosed, hpending, hgate, ?_⟩)
    simp [startExchange, transmitExchange, createExchange, exchangeOf, emit, armReply, advanceTid_eq, setNextTid,
      setPending]
  · rw [if_neg hgate]
    refine .inr (.inr
      ⟨if s.params.tidConsumedOnGateReject = true then s.r.nextTid + 1 else s.r.nextTid, ?_, rfl⟩)
    split
    · exact .inr rfl
    · exact .inl rfl

/-- Outputs that are given whatever the gate: replies, notices to the host and log lines; neither a frame of the host's nor a
status. -/
def IsUngated : Output → Prop
  | .tx bytes => ∃ tid, bytes = ackBytes tid ∨ ∃ reason, bytes = nackBytes tid reason
  | .ret _ => False
  | .val _ => True
  | .requestReceived _ _ => True
  | .messageCompleted _ _ _ => True
  | .statusAcknowledged => True
  | .log _ => True

/-- The outputs of a received Request (R225). -/
def requestOutputs (f : Frame) (s : State) : List Output :=
  if f.payload.length = 1 then
    if s.r.replyGranted = true then [.tx (ackBytes f.tid), .requestReceived f.tid (requestedType f)]
    else [.log .requestWhileGateClosed]
  else [.tx (nackBytes f.tid 4)]

/-- A received Request changes nothing but the outputs (R225). -/
theorem onRequest_eq (f : Frame) (s : State) : onRequest f s = saying (requestOutputs f s) s := by
  unfold onRequest requestOutputs
  by_cases hlength : f.payload.length = Config.requestPayloadLen
  · rw [if_neg (not_not_intro hlength), if_pos (show f.payload.length = 1 from hlength)]
    split
    · simp [transmitReply, emit, saying, ackBytes, Config.msgAck]
    · rfl
  · rw [if_pos hlength, if_neg (show ¬ f.payload.length = 1 from hlength)]
    rfl

theorem isUngated_ackBytes (tid : Byte) : IsUngated (.tx (ackBytes tid)) := ⟨tid, .inl rfl⟩

theorem isUngated_nackBytes (tid reason : Byte) : IsUngated (.tx (nackBytes tid reason)) := ⟨tid, .inr ⟨reason, rfl⟩⟩

theorem isUngated_verdictReply (v : Verdict) (tid : Byte) : IsUngated (.tx (verdictReply v tid)) := by
  cases v with
  | handled => exact isUngated_ackBytes tid
  | unhandled => exact isUngated_nackBytes tid 5
  | rejected reason => exact isUngated_nackBytes tid reason

theorem isUngated_of_mem_requestOutputs {f : Frame} {s : State} {o : Output} (h : o ∈ requestOutputs f s) :
    IsUngated o := by
  unfold requestOutputs at h
  split at h
  · split at h
    · rcases List.mem_pair.mp h with rfl | rfl
      · exact isUngated_ackBytes _
      · trivial
    · rw [List.mem_singleton.mp h]
      trivial
  · rw [List.mem_singleton.mp h]
    exact isUngated_nackBytes _ _

/-- What a dispatch can do (R221): complete the Pending Exchange, retry it, or give ungated outputs alone, having called the
host's handler or not. -/
theorem dispatch_effect (f : Frame) (s : State) :
    (∃ x, s.r.pending = some x ∧ dispatch f s = afterExchange
      ((if x.msgType = 0 then [.statusAcknowledged] else []) ++ [.messageCompleted x.msgType x.tid true]) s) ∨
    (∃ x, s.r.pending = some x ∧ dispatch f s = afterRetry x s) ∨
    ∃ dom outs, (∀ o ∈ outs, IsUngated o) ∧ dispatch f s = saying outs { s with dom := dom } := by
  have hunmatched : ∀ o ∈ [Output.log .unmatchedReply], IsUngated o := fun o ho => by
    rw [List.mem_singleton.mp ho]
    trivial
  rcases dispatch_cases f s with ⟨-, h⟩ | ⟨-, h⟩ | ⟨-, h⟩ | ⟨-, -, -, h⟩ <;> rw [h]
  · cases hmatch : matchingExchange f.tid s with
    | some x =>
      obtain ⟨hpending, -⟩ := (matchingExchange_eq_some _ _ _).mp hmatch
      exact .inl ⟨x, hpending, onAck_matched f s x hmatch⟩
    | none => exact .inr (.inr ⟨s.dom, _, hunmatched, onAck_unmatched f s hmatch⟩)
  · cases hmatch : matchingExchange f.tid s with
    | some x =>
      obtain ⟨hpending, -⟩ := (matchingExchange_eq_some _ _ _).mp hmatch
      exact .inr (.inl ⟨x, hpending, onNack_matched f s x hmatch⟩)
    | none => exact .inr (.inr ⟨s.dom, _, hunmatched, onNack_unmatched f s hmatch⟩)
  · exact .inr (.inr ⟨s.dom, _, fun _ => isUngated_of_mem_requestOutputs, onRequest_eq f s⟩)
  · refine .inr (.inr ⟨(recordDomainCall f s).dom, [.tx (verdictReply (domainVerdict f s) f.tid)], fun o ho => ?_,
      onDomain_eq f s⟩)
    rw [List.mem_singleton.mp ho]
    exact isUngated_verdictReply _ _

/-! ## A good frame of each class -/

section
variable {s : State} (hopen : s.r.isOpen = true) (hidle : s.p.state = .idle) (tid : Byte) {payload : List Byte}
  (hfits : payload.length ≤ 512)
include hopen hidle hfits

/-- A frame row whose CRC field is right is the dispatch of its frame (R161, R221). -/
theorem exec_good_frame {i : Instr} (msgType : Byte) (hi : i.isEvent = false)
    (hencode : encode i = frameBytes msgType tid payload (goodCrc msgType tid payload)) :
    exec i s =
      .next (dispatch ⟨msgType, tid, payload⟩ (afterFrame msgType tid payload (goodCrc msgType tid payload) s)) := by
  rw [exec_of_isEvent_false hi, hencode, rxBytes_good_frame hopen hidle msgType tid hfits]

theorem exec_good_ack :
    exec (.frameAck tid payload (goodCrc 1 tid payload)) s =
      .next (onAck ⟨1, tid, payload⟩ (afterFrame 1 tid payload (goodCrc 1 tid payload) s)) :=
  exec_good_frame hopen hidle tid hfits 1 rfl rfl

theorem exec_good_nack :
    exec (.frameNack tid payload (goodCrc 2 tid payload)) s =
      .next (onNack ⟨2, tid, payload⟩ (afterFrame 2 tid payload (goodCrc 2 tid payload) s)) :=
  exec_good_frame hopen hidle tid hfits 2 rfl rfl

theorem exec_good_request :
    exec (.frameRequest tid payload (goodCrc 3 tid payload)) s =
      .next (onRequest ⟨3, tid, payload⟩ (afterFrame 3 tid payload (goodCrc 3 tid payload) s)) :=
  exec_good_frame hopen hidle tid hfits 3 rfl rfl

/-- The row of a Status or domain frame (R102). -/
theorem exec_good_domain {t : Byte} (ht : t = 0 ∨ 4 ≤ t.toNat) :
    exec (if t = 0 then .frameStatus tid payload (goodCrc t tid payload)
      else .frameDomain t tid payload (goodCrc t tid payload)) s =
      .next (onDomain ⟨t, tid, payload⟩ (afterFrame t tid payload (goodCrc t tid payload) s)) := by
  have hdispatch (u : State) : dispatch ⟨t, tid, payload⟩ u = onDomain ⟨t, tid, payload⟩ u := by
    rcases dispatch_cases ⟨t, tid, payload⟩ u with ⟨h, -⟩ | ⟨h, -⟩ | ⟨h, -⟩ | ⟨-, -, -, heq⟩
    case inr.inr.inr => exact heq
    all_goals
      subst h
      exact absurd ht (by decide)
  rw [← hdispatch]
  split
  next hzero =>
    subst hzero
    exact exec_good_frame hopen hidle tid hfits 0 rfl rfl
  next => exact exec_good_frame hopen hidle tid hfits t rfl rfl

end

end Sys2Proof.Machine

namespace Sys2Proof.Proofs

open Sys2Proof Sys2Proof.Machine

/-- Settles O30. -/
theorem ackCompletesMatchingExchange : Obligations.AckCompletesMatchingExchange := by
  intro s tid payload hopen hidle hfits
  rw [exec_good_ack hopen hidle tid hfits]
  refine ⟨fun x hpending htid => congrArg _ (onAck_matched _ _ x ?_), fun hother => congrArg _ (onAck_unmatched _ _ ?_)⟩
  · exact (matchingExchange_eq_some tid s x).mpr ⟨hpending, htid⟩
  · exact (matchingExchange_eq_none tid s).mpr hother

/-- Settles O31. -/
theorem nackRetriesOrFailsMatchingExchange : Obligations.NackRetriesOrFailsMatchingExchange := by
  intro s tid payload hopen hidle hfits
  rw [exec_good_nack hopen hidle tid hfits]
  refine ⟨fun x hpending htid => congrArg _ (onNack_matched _ _ x ?_), fun hother => congrArg _ (onNack_unmatched _ _ ?_)⟩
  · exact (matchingExchange_eq_some tid s x).mpr ⟨hpending, htid⟩
  · exact (matchingExchange_eq_none tid s).mpr hother

/-- Settles O32: a payload of one byte is the branch of `requestOutputs` that asks the gate. -/
theorem requestIsAckedNackedOrDropped : Obligations.RequestIsAckedNackedOrDropped := by
  intro s tid payload hopen hidle hfits
  rw [exec_good_request hopen hidle tid hfits, onRequest_eq]
  match payload with
  | [] => rfl
  | [requested] =>
    cases hgate : s.r.replyGranted <;> simp [requestOutputs, requestedType, afterFrame, hgate]
  | _ :: _ :: _ => simp [requestOutputs]

/-- Settles O33: the verdict is the one that the DOM port gives. -/
theorem statusAndDomainFramesAreAnswered : Obligations.StatusAndDomainFramesAreAnswered := by
  intro s t tid payload hopen hidle hfits ht
  refine ⟨domainVerdict ⟨t, tid, payload⟩ s, fun w hw => domainVerdict_of_head _ _ w hw, ?_⟩
  rw [exec_good_domain hopen hidle tid hfits ht, onDomain_eq]
  rfl

end Sys2Proof.Proofs
end

section
/-! SUPPORT. What an instruction that completes has done, said once for all instructions, and what the reliability layer and the
parser leave unchanged whatever they do. Then the statements over every instruction: outputs, statuses, the builder, the
transaction ids, the end of an exchange (20_memory.md sections 5 and 9, 30_encoding.md R89, 44_reliability_dispatch.md
section 5). -/

namespace Sys2Proof.Machine

/-! ## One case for each thing an instruction can do -/

/-- The four FB_APPEND events. -/
def IsAppend (i : Instr) : Prop :=
  (∃ v, i = .fbAppendU8 v) ∨ (∃ v, i = .fbAppendU16 v) ∨ (∃ v, i = .fbAppendU32 v) ∨ ∃ u, i = .fbAppendRaw u

/-- The two events that send directly. -/
def IsSend (i : Instr) : Prop := i = .sendMessage ∨ ∃ q, i = .sendRequest q

/-- `Effect s i t`: the instruction `i`, completing in `s`, may leave `t`, for the reason that the constructor names. -/
inductive Effect (s : State) : Instr → State → Prop
  | reset (draw : ResetDraw) : Effect s .reset (resetWith draw s)
  | openChannel : Effect s .openChannel (setOpen true s)
  | close : Effect s .closeChannel (afterClose s)
  | closeIgnored : Effect s .closeChannel s
  | shutGate : Effect s (.setReplyGranted false) (setGate false s)
  | openGate : Effect s (.setReplyGranted true) (afterDrain (setGate true s))
  | crcInit : Effect s .crcInit (setAcc Config.crcSeed s)
  | crcUpdate (b : Byte) : Effect s (.crcUpdate b) (setAcc (crcStep s.crc.acc b) s)
  | crcValue : Effect s .crcValue (emit (.val s.crc.acc) s)
  | newFrame (t : Byte) (r : Bool) (m : U16) : Effect s (.fbNew t r m) (setBuilder ⟨t, [], r, timeoutOf m⟩ s)
  | append {i : Instr} (u : List Byte) : IsAppend i → Effect s i (afterAppend u s)
  | send {i : Instr} (d : Descriptor) : IsSend i → d = s.fb ∨ d.payload.length = 1 → notReplyType d.msgType →
      Effect s i (afterDirectSend d s)
  | dropQueued : Effect s .queueMessage (saying [.log .queueWhileClosed] s)
  | enqueue : s.r.isOpen = true → notReplyType s.fb.msgType →
      Effect s .queueMessage (afterDrain (setQueue (s.r.queue ++ [s.fb]) s))
  | receiveByte (b : Byte) : Effect s (.rxByte b) (rxByte b s)
  | receiveFrame {i : Instr} (u : List Byte) : i.isEvent = false → Effect s i (rxBytes u s)
  | dropSession : Effect s .frameDeadlineFire
      { s with p := { s.p with state := .idle, deadlineArmed := false }, out := s.out ++ [.log .frameDeadline] }
  | deadlineIgnored : Effect s .frameDeadlineFire s
  | expire (x : Pending) : s.r.pending = some x → Effect s .replyTimeoutFire (afterRetry x s)
  | expireEmpty : s.r.pending = none → Effect s .replyTimeoutFire (cancelReply s)
  | timeoutIgnored : Effect s .replyTimeoutFire s

theorem effect_of_exec_sendMessage {s t : State} (h : exec .sendMessage s = .next t) : Effect s .sendMessage t := by
  by_cases hreply : s.fb.msgType = 1 ∨ s.fb.msgType = 2
  · rw [exec_sendMessage_refused hreply] at h
    cases h
  · rw [exec_sendMessage hreply] at h
    cases h
    exact .send s.fb (.inl rfl) (.inl rfl) (not_or.mp hreply)

theorem effect_of_exec_queueMessage {s t : State} (h : exec .queueMessage s = .next t) : Effect s .queueMessage t := by
  by_cases hreply : s.fb.msgType = 1 ∨ s.fb.msgType = 2
  · rw [exec_queueMessage_refused hreply] at h
    cases h
  · rw [exec_queueMessage hreply] at h
    split at h
    next =>
      cases h
      exact .dropQueued
    next hopen =>
      split at h
      next => cases h
      next =>
        cases h
        exact .enqueue (by simpa using hopen) (not_or.mp hreply)

theorem effect_of_exec_replyTimeoutFire {s t : State} (h : exec .replyTimeoutFire s = .next t) :
    Effect s .replyTimeoutFire t := by
  cases harmed : s.r.replyTimerArmed with
  | false =>
    rw [exec_replyTimeoutFire_stale harmed] at h
    cases h
    exact .timeoutIgnored
  | true =>
    cases hpending : s.r.pending with
    | none =>
      rw [exec_replyTimeoutFire_empty harmed hpending] at h
      cases h
      exact .expireEmpty hpending
    | some x =>
      rw [exec_replyTimeoutFire_pending harmed hpending] at h
      cases h
      exact .expire x hpending

/-- Every completing instruction has one of the effects. -/
theorem effect_of_exec {i : Instr} {s t : State} (h : exec i s = .next t) : Effect s i t := by
  have hframe (hi : i.isEvent = false) : Effect s i t := by
    rw [exec_of_isEvent_false hi] at h
    cases h
    exact .receiveFrame _ hi
  cases i with
  | reset => cases h; exact .reset _
  | openChannel => rw [exec_openChannel] at h; cases h; exact .openChannel
  | closeChannel =>
    rw [exec_closeChannel] at h
    split at h <;> cases h
    · exact .close
    · exact .closeIgnored
  | setReplyGranted v =>
    cases v
    · cases h; exact .shutGate
    · rw [exec_setReplyGranted_true] at h; cases h; exact .openGate
  | crcInit => cases h; exact .crcInit
  | crcUpdate b => cases h; exact .crcUpdate b
  | crcValue => cases h; exact .crcValue
  | fbNew t r m => cases h; exact .newFrame t r m
  | fbAppendU8 v => rw [exec_fbAppendU8] at h; cases h; exact .append _ (.inl ⟨v, rfl⟩)
  | fbAppendU16 v => rw [exec_fbAppendU16] at h; cases h; exact .append _ (.inr (.inl ⟨v, rfl⟩))
  | fbAppendU32 v => rw [exec_fbAppendU32] at h; cases h; exact .append _ (.inr (.inr (.inl ⟨v, rfl⟩)))
  | fbAppendRaw u => rw [exec_fbAppendRaw] at h; cases h; exact .append _ (.inr (.inr (.inr ⟨u, rfl⟩)))
  | sendMessage => exact effect_of_exec_sendMessage h
  | sendRequest q =>
    rw [exec_sendRequest] at h
    cases h
    exact .send _ (.inr ⟨q, rfl⟩) (.inr rfl) ⟨by change (3 : Byte) ≠ 1; decide, by change (3 : Byte) ≠ 2; decide⟩
  | queueMessage => exact effect_of_exec_queueMessage h
  | rxByte b => cases h; exact .receiveByte b
  | frameDeadlineFire =>
    rw [exec_frameDeadlineFire] at h
    split at h <;> cases h
    · exact .dropSession
    · exact .deadlineIgnored
  | replyTimeoutFire => exact effect_of_exec_replyTimeoutFire h
  | frameStatus tid payload crc => exact hframe rfl
  | frameAck tid payload crc => exact hframe rfl
  | frameNack tid payload crc => exact hframe rfl
  | frameRequest tid payload crc => exact hframe rfl
  | frameDomain msgType tid payload crc => exact hframe rfl

/-! ## What the reliability layer and the parser leave unchanged -/

/-- From `s` to `t` only the parser, the exchange, the queue, the timers and the DOM port have changed, and outputs have been
added, each of them with the property `P`. -/
structure LinkStep (P : Output → Prop) (s t : State) : Prop where
  fb : t.fb = s.fb
  params : t.params = s.params
  inputs : t.inputs = s.inputs
  isOpen : t.r.isOpen = s.r.isOpen
  gate : t.r.replyGranted = s.r.replyGranted
  outputs : ∃ outs, t.out = s.out ++ outs ∧ ∀ o ∈ outs, P o

section
variable {P : Output → Prop} {s t u : State}

theorem LinkStep.quiet (hfb : t.fb = s.fb) (hparams : t.params = s.params) (hinputs : t.inputs = s.inputs)
    (hopen : t.r.isOpen = s.r.isOpen) (hgate : t.r.replyGranted = s.r.replyGranted) (hout : t.out = s.out) :
    LinkStep P s t :=
  ⟨hfb, hparams, hinputs, hopen, hgate, [], by rw [hout, List.append_nil], fun _ ho => absurd ho List.not_mem_nil⟩

theorem LinkStep.refl (P : Output → Prop) (s : State) : LinkStep P s s := .quiet rfl rfl rfl rfl rfl rfl

theorem LinkStep.trans (h : LinkStep P s t) (k : LinkStep P t u) : LinkStep P s u := by
  obtain ⟨outs, hout, hP⟩ := h.outputs
  obtain ⟨outs', hout', hP'⟩ := k.outputs
  exact ⟨k.fb.trans h.fb, k.params.trans h.params, k.inputs.trans h.inputs, k.isOpen.trans h.isOpen, k.gate.trans h.gate,
    outs ++ outs', by rw [hout', hout, List.append_assoc],
    fun o ho => (List.mem_append.mp ho).elim (hP o) (hP' o)⟩

theorem LinkStep.saying {outs : List Output} (h : LinkStep P s t) (houts : ∀ o ∈ outs, P o) :
    LinkStep P s (saying outs t) :=
  h.trans ⟨rfl, rfl, rfl, rfl, rfl, outs, rfl, houts⟩

theorem LinkStep.emit {o : Output} (h : LinkStep P s t) (ho : P o) : LinkStep P s (emit o t) :=
  h.saying fun _ hmem => List.mem_singleton.mp hmem ▸ ho

theorem linkStep_parser (P : Output → Prop) (q : Parser) (s : State) : LinkStep P s { s with p := q } :=
  .quiet rfl rfl rfl rfl rfl rfl

theorem linkStep_setQueue (P : Output → Prop) (q : List Descriptor) (s : State) : LinkStep P s (setQueue q s) :=
  .quiet rfl rfl rfl rfl rfl rfl

theorem linkStep_startExchange (d : Descriptor) (h : ∀ bytes, P (.tx bytes)) : LinkStep P s (startExchange d s) :=
  ⟨rfl, rfl, rfl, rfl, rfl, _, rfl, fun _ ho => List.mem_singleton.mp ho ▸ h _⟩

theorem linkStep_resend (x : Pending) (h : ∀ bytes, P (.tx bytes)) : LinkStep P s (resend x s) :=
  ⟨rfl, rfl, rfl, rfl, rfl, _, rfl, fun _ ho => List.mem_singleton.mp ho ▸ h _⟩

theorem linkStep_afterDrain (h : s.r.replyGranted = true → ∀ bytes, P (.tx bytes)) : LinkStep P s (afterDrain s) := by
  rcases afterDrain_cases s with ⟨heq, -⟩ | ⟨d, rest, -, ⟨-, -, hgate⟩, heq⟩ <;> rw [heq]
  · exact .refl P s
  · exact (linkStep_setQueue P rest s).trans (linkStep_startExchange d (h hgate))

theorem linkStep_afterExchange {outs : List Output} (h : s.r.replyGranted = true → ∀ bytes, P (.tx bytes))
    (houts : ∀ o ∈ outs, P o) : LinkStep P s (afterExchange outs s) := by
  have hrelease : LinkStep P s (releaseSlot s) := .quiet rfl rfl rfl rfl rfl rfl
  exact (hrelease.saying houts).trans (linkStep_afterDrain h)

/-- Either any bytes may be transmitted, or only ungated ones can be: the gate is shut and the Pending Exchange is neither an Ack
nor a Nack. -/
def MayTransmit (P : Output → Prop) (s : State) : Prop :=
  (∀ bytes, P (.tx bytes)) ∨ s.r.replyGranted = false ∧ ∀ x, s.r.pending = some x → notReplyType x.msgType

theorem MayTransmit.of_gate (h : MayTransmit P s) (hgate : s.r.replyGranted = true) : ∀ bytes, P (.tx bytes) := by
  rcases h with h | ⟨hshut, -⟩
  · exact h
  · rw [hgate] at hshut
    cases hshut

theorem linkStep_afterRetry {x : Pending} (h : MayTransmit P s) (hP : ∀ o, IsUngated o → P o)
    (hpending : s.r.pending = some x) : LinkStep P s (afterRetry x s) := by
  rcases afterRetry_cases x s with ⟨-, hgate, heq⟩ | heq <;> rw [heq]
  · refine linkStep_resend x ?_
    rcases h with h | ⟨hshut, hlegal⟩
    · exact h
    · obtain ⟨hack, hnack⟩ := hlegal x hpending
      rcases hgate with hopen | hreply | hreply
      · rw [hshut] at hopen
        cases hopen
      · exact absurd hreply hack
      · exact absurd hreply hnack
  · exact linkStep_afterExchange h.of_gate fun o ho => hP o (List.mem_singleton.mp ho ▸ trivial)

theorem linkStep_dispatch (f : Frame) (h : MayTransmit P s) (hP : ∀ o, IsUngated o → P o) :
    LinkStep P s (dispatch f s) := by
  rcases dispatch_effect f s with ⟨x, -, heq⟩ | ⟨x, hpending, heq⟩ | ⟨dom, outs, houts, heq⟩ <;> rw [heq]
  · refine linkStep_afterExchange h.of_gate fun o ho => hP o ?_
    split at ho
    · rcases List.mem_pair.mp ho with rfl | rfl <;> trivial
    · rw [List.mem_singleton.mp ho]
      trivial
  · exact linkStep_afterRetry h hP hpending
  · have hdom : LinkStep P s { s with dom := dom } := .quiet rfl rfl rfl rfl rfl rfl
    exact hdom.saying fun o ho => hP o (houts o ho)

theorem linkStep_rxByte (b : Byte) (h : MayTransmit P s) (hP : ∀ o, IsUngated o → P o) : LinkStep P s (rxByte b s) := by
  rcases rxByte_cases b s with heq | ⟨q, heq⟩ | ⟨q, reason, heq⟩ | ⟨-, -, q, -, -, heq⟩ <;> rw [heq]
  · exact .refl P s
  · exact linkStep_parser P q s
  · exact (linkStep_parser P q s).emit (hP (.log reason) trivial)
  · exact (linkStep_parser P q s).trans (linkStep_dispatch _ h hP)

/-- Bytes received one after the other, where `Q` holds before each of them. -/
theorem linkStep_rxBytes {Q : State → Prop} (hQ : ∀ b s, Q s → Q (rxByte b s)) (hmay : ∀ s, Q s → MayTransmit P s)
    (hP : ∀ o, IsUngated o → P o) (bytes : List Byte) (hs : Q s) : LinkStep P s (rxBytes bytes s) := by
  induction bytes generalizing s with
  | nil => exact .refl P s
  | cons b bytes ih => exact (linkStep_rxByte b (hmay s hs) hP).trans (ih (hQ b s hs))

theorem linkStep_afterDirectSend {d : Descriptor} (hstatus : ∀ status : Status, status.code ≤ 3 → P (.ret status))
    (htx : s.r.replyGranted = true ∨ d.msgType = 1 ∨ d.msgType = 2 → ∀ bytes, P (.tx bytes)) :
    LinkStep P s (afterDirectSend d s) := by
  rcases afterDirectSend_cases d s with ⟨status, hcode, heq⟩ | ⟨-, -, hgate, heq⟩ | ⟨tid, -, heq⟩ <;> rw [heq]
  · exact (LinkStep.refl P s).emit (hstatus status hcode)
  · exact (linkStep_startExchange d (htx hgate)).emit (hstatus .ok (by decide))
  · have htid : LinkStep P s (setNextTid tid s) := .quiet rfl rfl rfl rfl rfl rfl
    exact htid.emit (hstatus .gateClosed (by decide))

end

/-! ## Outputs, parameters and inputs -/

/-- Not a status. -/
def NotStatus (o : Output) : Prop := ∀ status, o ≠ .ret status

theorem notStatus_of_isUngated : ∀ o, IsUngated o → NotStatus o := by
  rintro o h status rfl
  exact h

theorem notStatus_tx (bytes : List Byte) : NotStatus (.tx bytes) := nofun

/-- Received bytes never make the block return a status. -/
theorem linkStep_rxBytes_notStatus (bytes : List Byte) (s : State) : LinkStep NotStatus s (rxBytes bytes s) :=
  linkStep_rxBytes (Q := fun _ => True) (fun _ _ _ => trivial) (fun _ _ => .inl notStatus_tx) notStatus_of_isUngated bytes
    trivial

theorem linkStep_expire (x : Pending) {s : State} (h : s.r.pending = some x) : LinkStep NotStatus s (afterRetry x s) :=
  linkStep_afterRetry (.inl notStatus_tx) notStatus_of_isUngated h

theorem linkStep_drain (s : State) : LinkStep NotStatus s (afterDrain s) := linkStep_afterDrain fun _ => notStatus_tx

theorem linkStep_send (d : Descriptor) (s : State) :
    LinkStep (fun o => ∀ status, o = .ret status → status.code ≤ 3) s (afterDirectSend d s) := by
  refine linkStep_afterDirectSend (fun status hcode status' h => ?_) fun _ bytes => nofun
  cases h
  exact hcode

/-- The parameters and the waiting inputs are as before, and outputs have been added, each with the property `P`. -/
structure AddsOutputs (P : Output → Prop) (s t : State) : Prop where
  params : t.params = s.params
  inputs : t.inputs = s.inputs
  outputs : ∃ outs, t.out = s.out ++ outs ∧ ∀ o ∈ outs, P o

theorem AddsOutputs.none {P : Output → Prop} {s t : State} (hparams : t.params = s.params) (hinputs : t.inputs = s.inputs)
    (hout : t.out = s.out) : AddsOutputs P s t :=
  ⟨hparams, hinputs, [], by rw [hout, List.append_nil], fun _ ho => absurd ho List.not_mem_nil⟩

theorem AddsOutputs.one {P : Output → Prop} {s t : State} {o : Output} (hparams : t.params = s.params)
    (hinputs : t.inputs = s.inputs) (hout : t.out = s.out ++ [o]) (ho : P o) : AddsOutputs P s t :=
  ⟨hparams, hinputs, [o], hout, fun _ hmem => List.mem_singleton.mp hmem ▸ ho⟩

theorem LinkStep.addsOutputs {P R : Output → Prop} {s t : State} (h : LinkStep P s t) (hPR : ∀ o, P o → R o) :
    AddsOutputs R s t := by
  obtain ⟨outs, hout, hP⟩ := h.outputs
  exact ⟨h.params, h.inputs, outs, hout, fun o ho => hPR o (hP o ho)⟩

/-- CLOSE reports the failure of the Pending Exchange, or nothing. -/
theorem eq_messageCompleted_of_mem_closeReport {s : State} {o : Output} (h : o ∈ closeReport s) :
    ∃ x : Pending, o = .messageCompleted x.msgType x.tid false := by
  unfold closeReport at h
  split at h
  next x _ => exact ⟨x, List.mem_singleton.mp h⟩
  next => exact absurd h List.not_mem_nil

/-- An append returns Ok or BuildOverflow (R139). -/
theorem addsOutputs_afterAppend {P : Output → Prop}
    (h : ∀ status : Status, status.code = 0 ∨ status.code = 4 → P (.ret status))
    (u : List Byte) (s : State) : AddsOutputs P s (afterAppend u s) := by
  unfold afterAppend
  split
  · exact .one rfl rfl rfl (h .ok (.inl rfl))
  · exact .one rfl rfl rfl (h .buildOverflow (.inr rfl))

/-- The statuses that an instruction may return (30_encoding.md R89). -/
def StatusFits (i : Instr) (o : Output) : Prop :=
  ∀ status, o = .ret status → IsSend i ∧ status.code ≤ 3 ∨ IsAppend i ∧ (status.code = 0 ∨ status.code = 4)

theorem NotStatus.statusFits {o : Output} (h : NotStatus o) (i : Instr) : StatusFits i o :=
  fun status ho => absurd ho (h status)

/-- Every instruction only adds outputs, and only a send or an append adds a status. -/
theorem Effect.addsOutputs {i : Instr} {s t : State} (h : Effect s i t) : AddsOutputs (StatusFits i) s t := by
  have hquiet (o : Output) (ho : NotStatus o) : StatusFits i o := ho.statusFits i
  cases h with
  | reset draw => exact .none rfl rfl rfl
  | openChannel => exact .none rfl rfl rfl
  | close =>
    refine ⟨rfl, rfl, closeReport s, rfl, fun o ho => ?_⟩
    obtain ⟨x, rfl⟩ := eq_messageCompleted_of_mem_closeReport ho
    exact hquiet _ nofun
  | closeIgnored => exact .none rfl rfl rfl
  | shutGate => exact .none rfl rfl rfl
  | openGate =>
    obtain ⟨hparams, hinputs, houts⟩ := (linkStep_drain (setGate true s)).addsOutputs hquiet
    exact ⟨hparams, hinputs, houts⟩
  | crcInit => exact .none rfl rfl rfl
  | crcUpdate b => exact .none rfl rfl rfl
  | crcValue => exact .one rfl rfl rfl (hquiet _ nofun)
  | newFrame t r m => exact .none rfl rfl rfl
  | append u hi =>
    refine addsOutputs_afterAppend (fun status hcode status' heq => ?_) u s
    cases heq
    exact .inr ⟨hi, hcode⟩
  | send d hi => exact (linkStep_send d s).addsOutputs fun o ho status heq => .inl ⟨hi, ho status heq⟩
  | dropQueued => exact .one rfl rfl rfl (hquiet _ nofun)
  | enqueue => exact ((linkStep_setQueue _ _ s).trans (linkStep_drain _)).addsOutputs hquiet
  | receiveByte b => exact (linkStep_rxBytes_notStatus [b] s).addsOutputs hquiet
  | receiveFrame u => exact (linkStep_rxBytes_notStatus u s).addsOutputs hquiet
  | dropSession => exact .one rfl rfl rfl (hquiet _ nofun)
  | deadlineIgnored => exact .none rfl rfl rfl
  | expire x hpending => exact (linkStep_expire x hpending).addsOutputs hquiet
  | expireEmpty => exact .none rfl rfl rfl
  | timeoutIgnored => exact .none rfl rfl rfl

/-! ## The builder -/

/-- Whether an instruction writes the build register. -/
def WritesBuilder (i : Instr) : Prop := i = .reset ∨ (∃ t r m, i = .fbNew t r m) ∨ IsAppend i

theorem Effect.fb_eq {i : Instr} {s t : State} (h : Effect s i t) (hi : ¬ WritesBuilder i) : t.fb = s.fb := by
  cases h with
  | reset draw => exact absurd (.inl rfl) hi
  | newFrame t r m => exact absurd (.inr (.inl ⟨t, r, m, rfl⟩)) hi
  | append u happend => exact absurd (.inr (.inr happend)) hi
  | openGate => exact (linkStep_drain (setGate true s)).fb
  | send d => exact (linkStep_send d s).fb
  | enqueue => exact (linkStep_drain (setQueue (s.r.queue ++ [s.fb]) s)).fb
  | receiveByte b => exact (linkStep_rxBytes_notStatus [b] s).fb
  | receiveFrame u => exact (linkStep_rxBytes_notStatus u s).fb
  | expire x hpending => exact (linkStep_expire x hpending).fb
  | openChannel | close | closeIgnored | shutGate | crcInit | crcUpdate | crcValue | dropQueued | dropSession
  | deadlineIgnored | expireEmpty | timeoutIgnored => rfl

/-! ## Transaction ids -/

/-- The counter is as before or has been advanced by one. -/
def TidAdvances (s t : State) : Prop := t.r.nextTid = s.r.nextTid ∨ t.r.nextTid = s.r.nextTid + 1

theorem tidAdvances_afterDrain (s : State) : TidAdvances s (afterDrain s) := by
  rcases afterDrain_cases s with ⟨heq, -⟩ | ⟨d, rest, -, -, heq⟩ <;> rw [heq]
  · exact .inl rfl
  · exact .inr rfl

theorem tidAdvances_afterExchange (outs : List Output) (s : State) : TidAdvances s (afterExchange outs s) :=
  tidAdvances_afterDrain (saying outs (releaseSlot s))

theorem tidAdvances_afterRetry (x : Pending) (s : State) : TidAdvances s (afterRetry x s) := by
  rcases afterRetry_cases x s with ⟨-, -, heq⟩ | heq <;> rw [heq]
  · exact .inl rfl
  · exact tidAdvances_afterExchange _ s

theorem tidAdvances_dispatch (f : Frame) (s : State) : TidAdvances s (dispatch f s) := by
  rcases dispatch_effect f s with ⟨x, -, heq⟩ | ⟨x, -, heq⟩ | ⟨dom, outs, -, heq⟩ <;> rw [heq]
  · exact tidAdvances_afterExchange _ s
  · exact tidAdvances_afterRetry x s
  · exact .inl rfl

theorem tidAdvances_rxByte (b : Byte) (s : State) : TidAdvances s (rxByte b s) := by
  rcases rxByte_cases b s with heq | ⟨q, heq⟩ | ⟨q, reason, heq⟩ | ⟨-, -, q, -, -, heq⟩ <;> rw [heq]
  case inr.inr.inr => exact tidAdvances_dispatch _ { s with p := q }
  all_goals exact .inl rfl

theorem tidAdvances_afterDirectSend (d : Descriptor) (s : State) : TidAdvances s (afterDirectSend d s) := by
  rcases afterDirectSend_cases d s with ⟨status, -, heq⟩ | ⟨-, -, -, heq⟩ | ⟨tid, htid, heq⟩ <;> rw [heq]
  · exact .inl rfl
  · exact .inr rfl
  · exact htid

theorem afterAppend_r (u : List Byte) (s : State) : (afterAppend u s).r = s.r := by
  unfold afterAppend
  split <;> rfl

theorem Effect.tidAdvances {i : Instr} {s t : State} (h : Effect s i t) (hevent : i.isEvent = true) (hi : i ≠ .reset) :
    TidAdvances s t := by
  cases h with
  | reset draw => exact absurd rfl hi
  | openGate => exact tidAdvances_afterDrain (setGate true s)
  | append u => exact .inl (by rw [afterAppend_r])
  | send d => exact tidAdvances_afterDirectSend d s
  | enqueue => exact tidAdvances_afterDrain (setQueue (s.r.queue ++ [s.fb]) s)
  | receiveByte b => exact tidAdvances_rxByte b s
  | receiveFrame u hframe => rw [hframe] at hevent; cases hevent
  | expire x => exact tidAdvances_afterRetry x s
  | openChannel | close | closeIgnored | shutGate | crcInit | crcUpdate | crcValue | newFrame | dropQueued | dropSession
  | deadlineIgnored | expireEmpty | timeoutIgnored => exact .inl rfl

/-! ## The end of an exchange -/

/-- The exchange `x` is still pending, only its retry count moved, or its completion is among the outputs added. -/
def KeptOrReported (x : Pending) (s t : State) : Prop :=
  (∃ k, t.r.pending = some { x with retryCount := k }) ∨
  ∃ outs success, t.out = s.out ++ outs ∧ .messageCompleted x.msgType x.tid success ∈ outs

section
variable {x : Pending} {s t : State}

theorem KeptOrReported.of_pending (h : t.r.pending = some x) : KeptOrReported x s t := .inl ⟨x.retryCount, h⟩

theorem keptOrReported_afterDrain (h : s.r.pending = some x) : KeptOrReported x s (afterDrain s) := by
  rcases afterDrain_cases s with ⟨heq, -⟩ | ⟨d, rest, -, ⟨-, hnone, -⟩, -⟩
  · rw [heq]
    exact .of_pending h
  · rw [h] at hnone
    cases hnone

theorem keptOrReported_afterExchange {outs : List Output} {success : Bool}
    (h : .messageCompleted x.msgType x.tid success ∈ outs) : KeptOrReported x s (afterExchange outs s) := by
  obtain ⟨more, hout, -⟩ := (linkStep_drain (saying outs (releaseSlot s))).outputs
  refine .inr ⟨outs ++ more, success, ?_, List.mem_append_left more h⟩
  rw [afterExchange_eq, hout, ← List.append_assoc]
  rfl

theorem keptOrReported_afterRetry : KeptOrReported x s (afterRetry x s) := by
  rcases afterRetry_cases x s with ⟨-, -, heq⟩ | heq <;> rw [heq]
  · exact .inl ⟨x.retryCount + 1, rfl⟩
  · exact keptOrReported_afterExchange (List.mem_singleton.mpr rfl)

theorem keptOrReported_dispatch (f : Frame) (h : s.r.pending = some x) : KeptOrReported x s (dispatch f s) := by
  rcases dispatch_effect f s with ⟨y, hy, heq⟩ | ⟨y, hy, heq⟩ | ⟨dom, outs, -, heq⟩ <;> rw [heq]
  · cases h.symm.trans hy
    exact keptOrReported_afterExchange (List.mem_append_right _ (List.mem_singleton.mpr rfl))
  · cases h.symm.trans hy
    exact keptOrReported_afterRetry
  · exact .of_pending h

theorem keptOrReported_rxByte (b : Byte) (h : s.r.pending = some x) : KeptOrReported x s (rxByte b s) := by
  rcases rxByte_cases b s with heq | ⟨q, heq⟩ | ⟨q, reason, heq⟩ | ⟨-, -, q, -, -, heq⟩ <;> rw [heq]
  case inr.inr.inr => exact keptOrReported_dispatch (s := { s with p := q }) _ h
  all_goals exact .of_pending h

theorem keptOrReported_afterDirectSend (d : Descriptor) (h : s.r.pending = some x) :
    KeptOrReported x s (afterDirectSend d s) := by
  rcases afterDirectSend_cases d s with ⟨status, -, heq⟩ | ⟨-, hnone, -, -⟩ | ⟨tid, -, heq⟩
  · rw [heq]
    exact .of_pending h
  · rw [h] at hnone
    cases hnone
  · rw [heq]
    exact .of_pending h

theorem keptOrReported_afterClose (h : s.r.pending = some x) : KeptOrReported x s (afterClose s) := by
  refine .inr ⟨closeReport s, false, rfl, ?_⟩
  rw [closeReport, h]
  exact List.mem_singleton.mpr rfl

theorem Effect.keptOrReported {i : Instr} (h : Effect s i t) (hevent : i.isEvent = true) (hi : i ≠ .reset)
    (hpending : s.r.pending = some x) : KeptOrReported x s t := by
  cases h with
  | reset draw => exact absurd rfl hi
  | close => exact keptOrReported_afterClose hpending
  | openGate => exact keptOrReported_afterDrain (s := setGate true s) hpending
  | append u => exact .of_pending (by rw [afterAppend_r, hpending])
  | send d => exact keptOrReported_afterDirectSend d hpending
  | enqueue => exact keptOrReported_afterDrain (s := setQueue (s.r.queue ++ [s.fb]) s) hpending
  | receiveByte b => exact keptOrReported_rxByte b hpending
  | receiveFrame u hframe => rw [hframe] at hevent; cases hevent
  | expire y hy =>
    cases hpending.symm.trans hy
    exact keptOrReported_afterRetry
  | openChannel | closeIgnored | shutGate | crcInit | crcUpdate | crcValue | newFrame | dropQueued | dropSession
  | deadlineIgnored | expireEmpty | timeoutIgnored => exact .of_pending hpending

end

end Sys2Proof.Machine

namespace Sys2Proof.Proofs

open Sys2Proof Sys2Proof.Machine

/-- Settles O48. -/
theorem endedExchangeIsAlwaysReported : Obligations.EndedExchangeIsAlwaysReported :=
  fun _ _ _ _ hevent hi hpending hexec => (effect_of_exec hexec).keptOrReported hevent hi hpending

/-- Settles O49. -/
theorem outputsOnlyGrowAndParametersStay : Obligations.OutputsOnlyGrowAndParametersStay := by
  intro i s t hexec
  obtain ⟨hparams, hinputs, outs, hout, -⟩ := (effect_of_exec hexec).addsOutputs
  exact ⟨⟨outs, hout⟩, hparams, hinputs⟩

/-- Settles O51. -/
theorem onlyBuilderEventsWriteTheBuilder : Obligations.OnlyBuilderEventsWriteTheBuilder := by
  intro i s t hreset hnew hu8 hu16 hu32 hraw hexec
  refine (effect_of_exec hexec).fb_eq ?_
  rintro (h | ⟨ty, r, m, h⟩ | ⟨v, h⟩ | ⟨v, h⟩ | ⟨v, h⟩ | ⟨u, h⟩)
  · exact hreset h
  · exact hnew ty r m h
  · exact hu8 v h
  · exact hu16 v h
  · exact hu32 v h
  · exact hraw u h

/-- Settles O52. -/
theorem eventAdvancesTidByAtMostOne : Obligations.EventAdvancesTidByAtMostOne :=
  fun _ _ _ hevent hi hexec => (effect_of_exec hexec).tidAdvances hevent hi

/-- Settles O58: the outputs that a next state adds are determined by the two states. -/
theorem statusesHaveTheirCodesAndCommands : Obligations.StatusesHaveTheirCodesAndCommands := by
  refine ⟨rfl, fun i s t outs status hexec hout hmem => ?_⟩
  obtain ⟨outs', hout', hfits⟩ := (effect_of_exec hexec).addsOutputs.outputs
  obtain rfl : outs = outs' := List.append_cancel_left (hout.symm.trans hout')
  exact hfits _ hmem status rfl

end Sys2Proof.Proofs
end

section
/-! SUPPORT. What one received byte does to the parser's registers, one case for each transition, and the session invariant that
every transition keeps (42_byte_stream_parser.md sections 2 and 4). Then the statements about sessions. -/

namespace Sys2Proof.Machine

/-! ## The parser's transitions -/

/-- `ParserStep b q q'`: on an open channel the byte `b` may take the registers `q` to `q'`, by the transition that the
constructor names. -/
inductive ParserStep (b : Byte) (q : Parser) : Parser → Prop
  | ignored : ParserStep b q q
  | start : b = 0x5A → ParserStep b q
      { q with state := .preamble2, crc := 0x1A4F, count := 0, payload := [], deadlineArmed := true }
  | preamble : q.state = .preamble2 → b = 0xA5 → ParserStep b q { q with state := .msgType, crc := crcStep q.crc b }
  | msgType : q.state = .msgType →
      ParserStep b q { q with state := .transactionId, msgType := b, crc := crcStep q.crc b }
  | transactionId : q.state = .transactionId →
      ParserStep b q { q with state := .length1, tid := b, crc := crcStep q.crc b }
  | length1 : q.state = .length1 →
      ParserStep b q { q with state := .length2, length := b.setWidth 16, crc := crcStep q.crc b }
  | noPayload (n : U16) : q.state = .length2 → n = withHighByte q.length b → n.toNat = 0 →
      ParserStep b q { q with state := .crc1, length := n, crc := crcStep q.crc b }
  | length2 (n : U16) : q.state = .length2 → n = withHighByte q.length b → 0 < n.toNat → n.toNat ≤ 512 →
      ParserStep b q { q with state := .payload, length := n, crc := crcStep q.crc b }
  | payload : q.state = .payload → q.count + 1 ≠ q.length.toNat →
      ParserStep b q { q with
        state := .payload, payload := q.payload ++ [b], count := q.count + 1, crc := crcStep q.crc b }
  | lastPayload : q.state = .payload → q.count + 1 = q.length.toNat →
      ParserStep b q { q with
        state := .crc1, payload := q.payload ++ [b], count := q.count + 1, crc := crcStep q.crc b }
  | crc1 : q.state = .crc1 → ParserStep b q { q with state := .crc2, rxCrc := b.setWidth 16 }
  | ended (q' : Parser) : q'.state = .idle → q'.deadlineArmed = false → q'.count = q.count → q'.payload = q.payload →
      ParserStep b q q'

/-! The reliability layer and the builder do not touch the parser. -/

@[simp] theorem afterDrain_p (s : State) : (afterDrain s).p = s.p := by
  rcases afterDrain_cases s with ⟨heq, -⟩ | ⟨d, rest, -, -, heq⟩ <;> rw [heq]
  rfl

@[simp] theorem afterExchange_p (outs : List Output) (s : State) : (afterExchange outs s).p = s.p := by
  rw [afterExchange_eq, afterDrain_p]
  rfl

@[simp] theorem afterRetry_p (x : Pending) (s : State) : (afterRetry x s).p = s.p := by
  rcases afterRetry_cases x s with ⟨-, -, heq⟩ | heq <;> rw [heq]
  · rfl
  · exact afterExchange_p _ s

@[simp] theorem dispatch_p (f : Frame) (s : State) : (dispatch f s).p = s.p := by
  rcases dispatch_effect f s with ⟨x, -, heq⟩ | ⟨x, -, heq⟩ | ⟨dom, outs, -, heq⟩ <;> rw [heq]
  · exact afterExchange_p _ s
  · exact afterRetry_p x s
  · rfl

@[simp] theorem afterDirectSend_p (d : Descriptor) (s : State) : (afterDirectSend d s).p = s.p := by
  rcases afterDirectSend_cases d s with ⟨status, -, heq⟩ | ⟨-, -, -, heq⟩ | ⟨tid, -, heq⟩ <;> rw [heq] <;> rfl

@[simp] theorem afterAppend_p (u : List Byte) (s : State) : (afterAppend u s).p = s.p := by
  unfold afterAppend
  split <;> rfl

theorem parserStep_rxLength2 (b : Byte) {s : State} (hstate : s.p.state = .length2) :
    ParserStep b s.p (rxLength2 b s).p := by
  by_cases hfits : (withHighByte s.p.length b).toNat ≤ 512
  · rw [rxLength2_of_fits hfits]
    by_cases hzero : 0 = (withHighByte s.p.length b).toNat
    · simp only [if_pos hzero]
      exact .noPayload _ hstate rfl hzero.symm
    · simp only [if_neg hzero]
      exact .length2 _ hstate rfl (by omega) hfits
  · rw [rxLength2_of_oversized (by omega)]
    exact .ended _ rfl rfl rfl rfl

theorem parserStep_rxPayload (b : Byte) {s : State} (hstate : s.p.state = .payload) :
    ParserStep b s.p (rxPayload b s).p := by
  rw [rxPayload_eq b hstate]
  by_cases hlast : s.p.count + 1 = s.p.length.toNat
  · simp only [if_pos hlast]
    exact .lastPayload hstate hlast
  · simp only [if_neg hlast]
    exact .payload hstate hlast

theorem parserStep_rxCrc2 (b : Byte) (s : State) : ParserStep b s.p (rxCrc2 b s).p := by
  by_cases hmatch : withHighByte s.p.rxCrc b = s.p.crc
  · rw [rxCrc2_of_match hmatch, dispatch_p]
    exact .ended _ rfl rfl rfl rfl
  · rw [rxCrc2_of_mismatch hmatch]
    exact .ended _ rfl rfl rfl rfl

/-- A received byte on an open channel makes one of the transitions (R150). -/
theorem parserStep_rxOpen (b : Byte) (s : State) : ParserStep b s.p (rxOpen b s).p := by
  cases hstate : s.p.state with
  | idle =>
    rw [rxOpen_idle b hstate]
    by_cases hb : b = 0x5A
    · rw [hb, rxIdle_5A]
      exact .start rfl
    · rw [rxIdle_of_ne hb]
      exact .ignored
  | preamble2 =>
    rw [rxOpen_preamble2 b hstate]
    by_cases hb : b = 0xA5
    · subst hb
      exact .preamble hstate rfl
    · rw [rxPreamble2_of_ne hb]
      exact .ended _ rfl rfl rfl rfl
  | msgType => rw [rxOpen_msgType b hstate]; exact .msgType hstate
  | transactionId => rw [rxOpen_transactionId b hstate]; exact .transactionId hstate
  | length1 => rw [rxOpen_length1 b hstate]; exact .length1 hstate
  | length2 => rw [rxOpen_length2 b hstate]; exact parserStep_rxLength2 b hstate
  | payload => rw [rxOpen_payload b hstate]; exact parserStep_rxPayload b hstate
  | crc1 => rw [rxOpen_crc1 b hstate]; exact .crc1 hstate
  | crc2 => rw [rxOpen_crc2 b hstate]; exact parserStep_rxCrc2 b s

/-! ## What an instruction does to the parser -/

/-- An instruction leaves the parser as it is, feeds it bytes, or ends the session. -/
theorem Effect.parser_cases {i : Instr} {s t : State} (h : Effect s i t) :
    t.p = s.p ∨ (∃ bytes, t = rxBytes bytes s) ∨
    t.p.state = .idle ∧ t.p.deadlineArmed = false ∧
      (t.p.count = 0 ∧ t.p.payload = [] ∨ t.p.count = s.p.count ∧ t.p.payload = s.p.payload) := by
  cases h with
  | reset draw => exact .inr (.inr ⟨rfl, rfl, .inl ⟨rfl, rfl⟩⟩)
  | close => exact .inr (.inr ⟨rfl, rfl, .inl ⟨rfl, rfl⟩⟩)
  | dropSession => exact .inr (.inr ⟨rfl, rfl, .inr ⟨rfl, rfl⟩⟩)
  | receiveByte b => exact .inr (.inl ⟨[b], rfl⟩)
  | receiveFrame bytes => exact .inr (.inl ⟨bytes, rfl⟩)
  | openGate => exact .inl (afterDrain_p _)
  | append u => exact .inl (afterAppend_p u s)
  | send d => exact .inl (afterDirectSend_p d s)
  | enqueue => exact .inl (afterDrain_p _)
  | expire x => exact .inl (afterRetry_p x s)
  | openChannel | closeIgnored | shutGate | crcInit | crcUpdate | crcValue | newFrame | dropQueued | deadlineIgnored
  | expireEmpty | timeoutIgnored => exact .inl rfl

/-! ## The session invariant -/

section
variable {b : Byte} {s t : State} {q : Parser}

/-- The session invariant speaks of the parser's registers only. -/
theorem State.SessionSound.of_p_eq (h : s.SessionSound) (hp : t.p = s.p) : t.SessionSound := by
  obtain ⟨hcrc, hlength, hheader, hcounted, hrange, hcomplete, hrx⟩ := h
  rw [← hp] at hcrc hlength hheader hcounted hrange hcomplete hrx
  exact ⟨hcrc, hlength, hheader, hcounted, hrange, hcomplete, hrx⟩

theorem sessionSound_of_idle (h : s.p.state = .idle) : s.SessionSound where
  crc_covers_session hlive := absurd h hlive
  half_length hstate := by rw [h] at hstate; cases hstate
  header_has_no_payload hbefore := by rw [h] at hbefore; cases hbefore
  payload_is_counted hlive := absurd h hlive
  payload_in_range hstate := by rw [h] at hstate; cases hstate
  payload_complete hstate := by rw [h] at hstate; rcases hstate with hstate | hstate <;> cases hstate
  half_crc hstate := by rw [h] at hstate; cases hstate

/-- A half received field and its high byte (R81). -/
theorem withHighByte_eq_u16Of {low : U16} (h : highByte low = 0) (b : Byte) :
    withHighByte low b = u16Of (lowByte low) b := by
  have hlow : low = (lowByte low).setWidth 16 := by
    rw [u16_eq_iff_bytes]
    simp [h]
  rw [withHighByte, hlow]
  simp [u16Of]

/-- A byte that is folded in and extends the bytes received keeps the CRC register right. -/
theorem State.SessionSound.crc_extend (h : s.SessionSound) (hlive : s.p.state ≠ .idle)
    (hbytes : sessionBytes q = sessionBytes s.p ++ [b]) : crcStep s.p.crc b = crcOf (sessionBytes q) := by
  rw [hbytes, crcOf_snoc, h.crc_covers_session hlive]

/-- While the header is received the payload buffer stays empty, so only the CRC and the half received length are at stake. -/
theorem State.SessionSound.header_step (h : s.SessionSound) (hbefore : beforePayload s.p.state = true)
    (hbefore' : beforePayload q.state = true) (hcrc : q.crc = crcStep s.p.crc b)
    (hbytes : sessionBytes q = sessionBytes s.p ++ [b]) (hpayload : q.payload = s.p.payload) (hcount : q.count = s.p.count)
    (hlength : q.state = .length2 → highByte q.length = 0) : ({ t with p := q } : State).SessionSound := by
  have hlive : s.p.state ≠ .idle := fun hidle => by rw [hidle] at hbefore; cases hbefore
  have hstate : ∀ {target : ParserState}, beforePayload target = false → q.state ≠ target :=
    fun htarget heq => by rw [heq, htarget] at hbefore'; cases hbefore'
  exact {
    crc_covers_session := fun _ => hcrc.trans (h.crc_extend hlive hbytes)
    half_length := hlength
    header_has_no_payload := fun _ => hpayload.trans (h.header_has_no_payload hbefore)
    payload_is_counted := fun _ => by
      change q.payload.length = q.count
      rw [hpayload, hcount, h.payload_is_counted hlive]
    payload_in_range := fun heq => absurd heq (hstate rfl)
    payload_complete := fun heq => absurd heq (not_or.mpr ⟨hstate rfl, hstate rfl⟩)
    half_crc := fun heq => absurd heq (hstate rfl) }

/-- Once the length is known the session's bytes are the whole header and the payload so far. -/
theorem sessionBytes_after_header (h : q.state = .payload ∨ q.state = .crc1 ∨ q.state = .crc2) :
    sessionBytes q = headerBytes q.msgType q.tid q.length ++ q.payload := by
  rcases h with h | h | h <;> simp only [sessionBytes, h]

/-- The second length byte completes the header. -/
theorem State.SessionSound.header_complete (h : s.SessionSound) (hstate : s.p.state = .length2) {n : U16}
    (hn : n = withHighByte s.p.length b) :
    headerBytes s.p.msgType s.p.tid n ++ s.p.payload = sessionBytes s.p ++ [b] := by
  have hempty : s.p.payload = [] := h.header_has_no_payload (by rw [hstate]; rfl)
  rw [hn, withHighByte_eq_u16Of (h.half_length hstate)]
  simp [sessionBytes, hstate, hempty, headerBytes]

/-- Every transition keeps the session invariant. -/
theorem State.SessionSound.parserStep (h : s.SessionSound) (hstep : ParserStep b s.p t.p) : t.SessionSound := by
  generalize hq : t.p = q at hstep
  suffices hsound : ({ t with p := q } : State).SessionSound from hsound.of_p_eq hq
  cases hstep with
  | ignored => exact h.of_p_eq rfl
  | start hb => exact ⟨fun _ => crcStep_seed_5A.symm, nofun, fun _ => rfl, fun _ => rfl, nofun, nofun, nofun⟩
  | preamble hstate hb =>
    subst hb
    exact h.header_step (by rw [hstate]; rfl) rfl rfl (by simp only [sessionBytes, hstate]; rfl) rfl rfl nofun
  | msgType hstate =>
    exact h.header_step (by rw [hstate]; rfl) rfl rfl (by simp only [sessionBytes, hstate]; rfl) rfl rfl nofun
  | transactionId hstate =>
    exact h.header_step (by rw [hstate]; rfl) rfl rfl (by simp only [sessionBytes, hstate]; rfl) rfl rfl nofun
  | length1 hstate =>
    exact h.header_step (by rw [hstate]; rfl) rfl rfl (by simp [sessionBytes, hstate]) rfl rfl
      fun _ => highByte_setWidth b
  | noPayload n hstate hn hzero =>
    have hlive : s.p.state ≠ .idle := by rw [hstate]; nofun
    have hempty : s.p.payload = [] := h.header_has_no_payload (by rw [hstate]; rfl)
    refine ⟨fun _ => h.crc_extend hlive (h.header_complete hstate hn), nofun, nofun,
      fun _ => h.payload_is_counted hlive, nofun, fun _ => ⟨?_, ?_⟩, nofun⟩
    · change s.p.payload.length = n.toNat
      rw [hempty, hzero, List.length_nil]
    · change n.toNat ≤ 512
      omega
  | length2 n hstate hn hpos hfits =>
    have hlive : s.p.state ≠ .idle := by rw [hstate]; nofun
    exact ⟨fun _ => h.crc_extend hlive (h.header_complete hstate hn), nofun, nofun,
      fun _ => h.payload_is_counted hlive, fun _ => hfits, nofun, nofun⟩
  | payload hstate hmore =>
    have hlive : s.p.state ≠ .idle := by rw [hstate]; nofun
    refine ⟨fun _ => h.crc_extend hlive ?_, nofun, nofun, fun _ => ?_, fun _ => h.payload_in_range hstate, nofun, nofun⟩
    · rw [sessionBytes_after_header (.inl rfl), sessionBytes_after_header (.inl hstate), List.append_assoc]
    · simp [h.payload_is_counted hlive]
  | lastPayload hstate hlast =>
    have hlive : s.p.state ≠ .idle := by rw [hstate]; nofun
    have hcounted : (s.p.payload ++ [b]).length = s.p.count + 1 := by simp [h.payload_is_counted hlive]
    refine ⟨fun _ => h.crc_extend hlive ?_, nofun, nofun, fun _ => hcounted, nofun,
      fun _ => ⟨hcounted.trans hlast, h.payload_in_range hstate⟩, nofun⟩
    rw [sessionBytes_after_header (.inr (.inl rfl)), sessionBytes_after_header (.inl hstate), List.append_assoc]
  | crc1 hstate =>
    have hlive : s.p.state ≠ .idle := by rw [hstate]; nofun
    refine ⟨fun _ => ?_, nofun, nofun, fun _ => h.payload_is_counted hlive, nofun,
      fun _ => h.payload_complete (.inl hstate), fun _ => highByte_setWidth b⟩
    rw [sessionBytes_after_header (.inr (.inr rfl)), ← sessionBytes_after_header (.inr (.inl hstate))]
    exact h.crc_covers_session hlive
  | ended q' hidle => exact sessionSound_of_idle hidle

theorem sessionSound_rxByte (b : Byte) (s : State) (h : s.SessionSound) : (rxByte b s).SessionSound := by
  cases hopen : s.r.isOpen with
  | false => rwa [rxByte_closed b s hopen]
  | true =>
    rw [rxByte_open b s hopen]
    exact h.parserStep (parserStep_rxOpen b s)

theorem Effect.sessionSound {i : Instr} (h : Effect s i t) (hs : s.SessionSound) : t.SessionSound := by
  rcases h.parser_cases with hp | ⟨bytes, heq⟩ | ⟨hidle, -⟩
  · exact hs.of_p_eq hp
  · rw [heq]
    exact rxBytes_induction State.SessionSound sessionSound_rxByte bytes s hs
  · exact sessionSound_of_idle hidle

/-! ## The last byte of a session -/

/-- In a sound session that waits for its last byte, the bytes received and that byte are the serialized form of the received
frame exactly when the CRC field is the CRC of the session (R165). -/
theorem State.SessionSound.consumed_eq_serialize_iff (h : s.SessionSound) (hstate : s.p.state = .crc2) :
    sessionBytes s.p ++ [lowByte s.p.rxCrc, b] = serialize s.p.msgType s.p.tid s.p.payload ↔
      u16Of (lowByte s.p.rxCrc) b = s.p.crc := by
  have hlive : s.p.state ≠ .idle := by rw [hstate]; nofun
  have hbytes := sessionBytes_after_header (.inr (.inr hstate))
  obtain ⟨hlength, hfits⟩ := h.payload_complete (.inr hstate)
  have hfield : BitVec.ofNat 16 s.p.payload.length = s.p.length := by
    rw [hlength, BitVec.ofNat_toNat, BitVec.setWidth_eq]
  have hserialize : serialize s.p.msgType s.p.tid s.p.payload = sessionBytes s.p ++ bytesOfU16 s.p.crc := by
    rw [serialize_eq _ _ _ (hlength ▸ hfits), frameBytes, hfield, ← hbytes, h.crc_covers_session hlive]
  have hpair : u16Of (lowByte s.p.rxCrc) b = s.p.crc ↔ lowByte s.p.rxCrc = lowByte s.p.crc ∧ b = highByte s.p.crc := by
    rw [u16_eq_iff_bytes, lowByte_u16Of, highByte_u16Of]
  rw [hserialize, List.append_cancel_left_eq, hpair]
  simp [bytesOfU16]

end

end Sys2Proof.Machine

namespace Sys2Proof.Proofs

open Sys2Proof Sys2Proof.Machine

/-- Settles O26: by `consumed_eq_serialize_iff` the comparison of the CRC field decides whether the bytes are a serialized
frame. -/
theorem onlyValidFramesAreDispatched : Obligations.OnlyValidFramesAreDispatched := by
  intro s b hsound hopen hstate consumed t
  have hfield : withHighByte s.p.rxCrc b = u16Of (lowByte s.p.rxCrc) b := withHighByte_eq_u16Of (hsound.half_crc hstate) b
  have hvalid : consumed = serialize s.p.msgType s.p.tid s.p.payload ↔ withHighByte s.p.rxCrc b = s.p.crc := by
    rw [hfield]
    exact hsound.consumed_eq_serialize_iff hstate
  have ht : { s with p := crcTaken b s.p } = t := by rw [crcTaken, hfield]
  rw [exec_rxByte_open b hopen, rxOpen_crc2 b hstate, ← ht]
  exact ⟨fun h => congrArg _ (rxCrc2_of_match (hvalid.mp h)),
    fun h => congrArg _ (rxCrc2_of_mismatch (hvalid.not.mp h))⟩

/-- Settles O27. -/
theorem sessionSoundAtReset : Obligations.SessionSoundAtReset := sessionSound_of_idle rfl

/-- Settles O28: a step that waits does not touch the parser; one that executes has an effect that keeps the invariant. -/
theorem everyStepKeepsSessionSound : Obligations.EveryStepKeepsSessionSound := by
  intro s t hsound hstep
  rcases step_next_cases hstep with ⟨ws, rfl⟩ | ⟨w, rest, i, left, -, -, hexec⟩
  · exact hsound.of_p_eq rfl
  · exact (effect_of_exec hexec).sessionSound (hsound.of_p_eq rfl)

end Sys2Proof.Proofs
end

section
/-! SUPPORT. The invariants of 10_state.md R40, split into what they say of the parser, of the reliability layer, of the two
together and of the builder, and kept by every instruction part by part. Then the statements that rest on them. -/

namespace Sys2Proof.Machine

/-! ## The parts of the invariant -/

/-- Items 2 and 5 of R40, with the model's addition to item 5. -/
structure Parser.Sound (q : Parser) : Prop where
  deadline_iff_session : q.deadlineArmed = true ↔ q.state ≠ .idle
  payload_is_counted : q.payload.length = q.count ∧ q.count ≤ 512
  payload_state_in_range : q.state = .payload → q.count < q.length.toNat ∧ q.length.toNat ≤ 512
  header_has_no_payload : beforePayload q.state = true → q.count = 0

/-- The frame `msgType` with this payload may be pending or queued (items 6 and 7). -/
def LegalFrame (msgType : Byte) (payload : List Byte) : Prop := payload.length ≤ 512 ∧ notReplyType msgType

/-- Items 1, 3, 6 and 7 of R40, for the reliability layer. -/
structure Reliability.Sound (r : Reliability) : Prop where
  timer_iff_pending : r.replyTimerArmed = r.pending.isSome
  closed_is_clean : r.isOpen = false → r.pending = none ∧ r.queue = []
  pending_is_legal : ∀ x, r.pending = some x → LegalFrame x.msgType x.payload ∧ x.retryCount ≤ 3
  queue_is_legal : ∀ d ∈ r.queue, LegalFrame d.msgType d.payload

/-- Item 4 of R40. -/
def Reliability.Drained (r : Reliability) : Prop :=
  r.isOpen = true → r.pending = none → r.replyGranted = true → r.queue = []

/-- The invariant is the conjunction of its parts; a closed channel has no session besides. -/
theorem inv_iff (s : State) :
    s.Inv ↔ s.p.Sound ∧ s.r.Sound ∧ s.r.Drained ∧ (s.r.isOpen = false → s.p.state = .idle) ∧
      s.fb.payload.length ≤ 512 := by
  constructor
  · intro h
    refine ⟨⟨h.deadline_iff_session, h.payload_is_counted, h.payload_state_in_range, h.header_has_no_payload⟩,
      ⟨h.reply_timer_iff_pending, fun hclosed => ?_, fun x hx => ?_, h.queue_is_legal⟩, h.queue_is_drained,
      fun hclosed => ?_, h.builder_fits⟩
    · obtain ⟨hpending, hqueue, -⟩ := h.closed_is_clean hclosed
      exact ⟨hpending, hqueue⟩
    · obtain ⟨hfits, hcount, htype⟩ := h.pending_is_legal x hx
      exact ⟨⟨hfits, htype⟩, hcount⟩
    · obtain ⟨-, -, hidle, -⟩ := h.closed_is_clean hclosed
      exact hidle
  · rintro ⟨hp, hr, hdrained, hidle, hfb⟩
    refine ⟨hr.timer_iff_pending, hp.deadline_iff_session, fun hclosed => ?_, hdrained, hp.payload_is_counted,
      hp.payload_state_in_range, hp.header_has_no_payload, hfb, fun x hx => ?_, hr.queue_is_legal⟩
    · obtain ⟨hpending, hqueue⟩ := hr.closed_is_clean hclosed
      have hdeadline : s.p.deadlineArmed = false := by
        simpa [hidle hclosed] using hp.deadline_iff_session
      exact ⟨hpending, hqueue, hidle hclosed, hdeadline, by rw [hr.timer_iff_pending, hpending]; rfl⟩
    · obtain ⟨⟨hfits, htype⟩, hcount⟩ := hr.pending_is_legal x hx
      exact ⟨hfits, hcount, htype⟩

/-! ## The parser -/

theorem Parser.sound_of_idle {q : Parser} (hidle : q.state = .idle) (hdeadline : q.deadlineArmed = false)
    (hcounted : q.payload.length = q.count ∧ q.count ≤ 512) : q.Sound where
  deadline_iff_session := by simp [hidle, hdeadline]
  payload_is_counted := hcounted
  payload_state_in_range hstate := by rw [hidle] at hstate; cases hstate
  header_has_no_payload hbefore := by rw [hidle] at hbefore; cases hbefore

/-- Every transition keeps the parser's invariants. -/
theorem Parser.Sound.parserStep {b : Byte} {q q' : Parser} (h : q.Sound) (hstep : ParserStep b q q') : q'.Sound := by
  obtain ⟨hdeadline, hcounted, hrange, hheader⟩ := h
  have hlive {target : ParserState} (hstate : q.state = target) (htarget : target ≠ .idle) : q.deadlineArmed = true :=
    hdeadline.mpr (hstate ▸ htarget)
  cases hstep with
  | ignored => exact ⟨hdeadline, hcounted, hrange, hheader⟩
  | start => exact ⟨by simp, ⟨rfl, by simp⟩, nofun, fun _ => rfl⟩
  | preamble hstate =>
    exact ⟨by simp [hlive hstate nofun], hcounted, nofun, fun _ => hheader (by rw [hstate]; rfl)⟩
  | msgType hstate =>
    exact ⟨by simp [hlive hstate nofun], hcounted, nofun, fun _ => hheader (by rw [hstate]; rfl)⟩
  | transactionId hstate =>
    exact ⟨by simp [hlive hstate nofun], hcounted, nofun, fun _ => hheader (by rw [hstate]; rfl)⟩
  | length1 hstate =>
    exact ⟨by simp [hlive hstate nofun], hcounted, nofun, fun _ => hheader (by rw [hstate]; rfl)⟩
  | noPayload n hstate => exact ⟨by simp [hlive hstate nofun], hcounted, nofun, nofun⟩
  | length2 n hstate hn hpos hfits =>
    refine ⟨by simp [hlive hstate nofun], hcounted, fun _ => ⟨?_, hfits⟩, nofun⟩
    change q.count < n.toNat
    rwa [hheader (by rw [hstate]; rfl)]
  | payload hstate hmore =>
    obtain ⟨hcount, hfits⟩ := hrange hstate
    refine ⟨by simp [hlive hstate nofun], ⟨by simp [hcounted], ?_⟩, fun _ => ⟨?_, hfits⟩, nofun⟩
    · change q.count + 1 ≤ 512
      omega
    · change q.count + 1 < q.length.toNat
      omega
  | lastPayload hstate hlast =>
    obtain ⟨hcount, hfits⟩ := hrange hstate
    exact ⟨by simp [hlive hstate nofun], ⟨by simp [hcounted], hlast.trans_le hfits⟩, nofun, nofun⟩
  | crc1 hstate => exact ⟨by simp [hlive hstate nofun], hcounted, nofun, nofun⟩
  | ended q' hidle hdisarmed hcount hpayload =>
    exact Parser.sound_of_idle hidle hdisarmed (by rw [hpayload, hcount]; exact hcounted)

/-! ## The reliability layer -/

section
variable {s : State}

theorem Reliability.Sound.startExchange {d : Descriptor} (h : s.r.Sound) (hopen : s.r.isOpen = true)
    (hd : LegalFrame d.msgType d.payload) : (startExchange d s).r.Sound where
  timer_iff_pending := rfl
  closed_is_clean hclosed := absurd hopen (by rw [show s.r.isOpen = false from hclosed]; decide)
  pending_is_legal := by
    rintro x ⟨⟩
    exact ⟨hd, Nat.zero_le 3⟩
  queue_is_legal := h.queue_is_legal

theorem Reliability.drained_of_pending {r : Reliability} {x : Pending} (h : r.pending = some x) : r.Drained :=
  fun _ hnone => by rw [h] at hnone; cases hnone

/-- The drain restores item 4 (R190). -/
theorem Reliability.Sound.afterDrain (h : s.r.Sound) : (afterDrain s).r.Sound ∧ (afterDrain s).r.Drained := by
  rcases afterDrain_cases s with ⟨heq, hidle⟩ | ⟨d, rest, hqueue, ⟨hopen, -, -⟩, heq⟩ <;> rw [heq]
  · refine ⟨h, fun hopen hnone hgate => ?_⟩
    exact hidle.resolve_right (not_not_intro ⟨hopen, hnone, hgate⟩)
  · have hlegal : ∀ d' ∈ d :: rest, LegalFrame d'.msgType d'.payload := hqueue ▸ h.queue_is_legal
    have hrest : (setQueue rest s).r.Sound :=
      ⟨h.timer_iff_pending, fun hclosed => absurd hopen (by rw [show s.r.isOpen = false from hclosed]; decide),
        h.pending_is_legal, fun d' hd' => hlegal d' (List.mem_cons_of_mem d hd')⟩
    exact ⟨hrest.startExchange hopen (hlegal d List.mem_cons_self), Reliability.drained_of_pending rfl⟩

theorem Reliability.Sound.afterExchange (h : s.r.Sound) (outs : List Output) :
    (afterExchange outs s).r.Sound ∧ (afterExchange outs s).r.Drained := by
  have hrelease : (saying outs (releaseSlot s)).r.Sound :=
    ⟨rfl, fun hclosed => ⟨rfl, (h.closed_is_clean hclosed).2⟩, nofun, h.queue_is_legal⟩
  exact hrelease.afterDrain

theorem Reliability.Sound.afterRetry {x : Pending} (h : s.r.Sound) (hpending : s.r.pending = some x) :
    (afterRetry x s).r.Sound ∧ (afterRetry x s).r.Drained := by
  rcases afterRetry_cases x s with ⟨hcount, -, heq⟩ | heq <;> rw [heq]
  · obtain ⟨hlegal, -⟩ := h.pending_is_legal x hpending
    refine ⟨⟨rfl, fun hclosed => ?_, ?_, h.queue_is_legal⟩, Reliability.drained_of_pending rfl⟩
    · obtain ⟨hnone, -⟩ := h.closed_is_clean hclosed
      rw [hpending] at hnone
      cases hnone
    · rintro y ⟨⟩
      exact ⟨hlegal, hcount⟩
  · exact h.afterExchange _

theorem Reliability.Sound.dispatch (h : s.r.Sound) (hdrained : s.r.Drained) (f : Frame) :
    (dispatch f s).r.Sound ∧ (dispatch f s).r.Drained := by
  rcases dispatch_effect f s with ⟨x, -, heq⟩ | ⟨x, hpending, heq⟩ | ⟨dom, outs, -, heq⟩ <;> rw [heq]
  · exact h.afterExchange _
  · exact h.afterRetry hpending
  · exact ⟨h, hdrained⟩

theorem Reliability.Sound.rxByte (h : s.r.Sound) (hdrained : s.r.Drained) (b : Byte) :
    (rxByte b s).r.Sound ∧ (rxByte b s).r.Drained := by
  rcases rxByte_cases b s with heq | ⟨q, heq⟩ | ⟨q, reason, heq⟩ | ⟨-, -, q, -, -, heq⟩ <;> rw [heq]
  case inr.inr.inr => exact Reliability.Sound.dispatch (s := { s with p := q }) h hdrained _
  all_goals exact ⟨h, hdrained⟩

theorem Reliability.Sound.afterDirectSend {d : Descriptor} (h : s.r.Sound) (hdrained : s.r.Drained)
    (hd : LegalFrame d.msgType d.payload) : (afterDirectSend d s).r.Sound ∧ (afterDirectSend d s).r.Drained := by
  rcases afterDirectSend_cases d s with ⟨status, -, heq⟩ | ⟨hopen, -, -, heq⟩ | ⟨tid, -, heq⟩ <;> rw [heq]
  · exact ⟨h, hdrained⟩
  · exact ⟨h.startExchange hopen hd, Reliability.drained_of_pending rfl⟩
  · exact ⟨⟨h.timer_iff_pending, h.closed_is_clean, h.pending_is_legal, h.queue_is_legal⟩, hdrained⟩

end

/-! ## Every instruction -/

section
variable {s t : State}

/-- What leaves the parser, the builder and the channel as they are keeps the invariant if it keeps the reliability layer's
part. -/
theorem State.Inv.of_link {P : Output → Prop} (hs : s.Inv) (hlink : LinkStep P s t) (hp : t.p = s.p)
    (hr : t.r.Sound ∧ t.r.Drained) : t.Inv := by
  obtain ⟨hparser, -, -, hidle, hfb⟩ := (inv_iff s).mp hs
  refine (inv_iff t).mpr ⟨?_, hr.1, hr.2, ?_, ?_⟩
  · rwa [hp]
  · rwa [hlink.isOpen, hp]
  · rwa [hlink.fb]

theorem inv_rxByte (b : Byte) (s : State) (hs : s.Inv) : (rxByte b s).Inv := by
  obtain ⟨hparser, hr, hdrained, -, hfb⟩ := (inv_iff s).mp hs
  cases hopen : s.r.isOpen with
  | false => rwa [rxByte_closed b s hopen]
  | true =>
    have hlink := linkStep_rxBytes_notStatus [b] s
    have hr' := hr.rxByte hdrained b
    refine (inv_iff _).mpr ⟨?_, hr'.1, hr'.2, fun hclosed => ?_, ?_⟩
    · rw [rxByte_open b s hopen]
      exact hparser.parserStep (parserStep_rxOpen b s)
    · have hsame : (rxByte b s).r.isOpen = s.r.isOpen := hlink.isOpen
      rw [hsame, hopen] at hclosed
      cases hclosed
    · have hsame : (rxByte b s).fb = s.fb := hlink.fb
      rwa [hsame]

theorem inv_resetWith (draw : ResetDraw) (s : State) : (resetWith draw s).Inv :=
  (inv_iff _).mpr ⟨Parser.sound_of_idle rfl rfl ⟨rfl, Nat.zero_le _⟩, ⟨rfl, fun _ => ⟨rfl, rfl⟩, nofun, nofun⟩,
    fun _ _ _ => rfl, fun _ => rfl, Nat.zero_le _⟩

theorem inv_afterClose (hs : s.Inv) : (afterClose s).Inv :=
  (inv_iff _).mpr ⟨Parser.sound_of_idle rfl rfl ⟨rfl, Nat.zero_le _⟩, ⟨rfl, fun _ => ⟨rfl, rfl⟩, nofun, nofun⟩,
    fun _ _ _ => rfl, fun _ => rfl, hs.builder_fits⟩

/-- A channel that is closed has an empty queue, so opening it leaves nothing to drain. -/
theorem inv_setOpen_true (hs : s.Inv) : (setOpen true s).Inv := by
  obtain ⟨hparser, hr, hdrained, -, hfb⟩ := (inv_iff s).mp hs
  refine (inv_iff _).mpr ⟨hparser, ⟨hr.timer_iff_pending, nofun, hr.pending_is_legal, hr.queue_is_legal⟩,
    fun _ hnone hgate => ?_, nofun, hfb⟩
  cases hopen : s.r.isOpen with
  | false => exact (hr.closed_is_clean hopen).2
  | true => exact hdrained hopen hnone hgate

theorem inv_setGate_false (hs : s.Inv) : (setGate false s).Inv := by
  obtain ⟨hparser, hr, -, hidle, hfb⟩ := (inv_iff s).mp hs
  exact (inv_iff _).mpr ⟨hparser,
    ⟨hr.timer_iff_pending, hr.closed_is_clean, hr.pending_is_legal, hr.queue_is_legal⟩, nofun, hidle, hfb⟩

theorem inv_afterDrain_setGate_true (hs : s.Inv) : (afterDrain (setGate true s)).Inv := by
  obtain ⟨hparser, hr, -, hidle, hfb⟩ := (inv_iff s).mp hs
  have hgate : (setGate true s).r.Sound :=
    ⟨hr.timer_iff_pending, hr.closed_is_clean, hr.pending_is_legal, hr.queue_is_legal⟩
  have hlink := linkStep_drain (setGate true s)
  refine (inv_iff _).mpr ⟨?_, hgate.afterDrain.1, hgate.afterDrain.2, ?_, ?_⟩
  · rwa [afterDrain_p]
  · rwa [hlink.isOpen, afterDrain_p]
  · rwa [hlink.fb]

theorem inv_setBuilder {d : Descriptor} (hs : s.Inv) (hd : d.payload.length ≤ 512) : (setBuilder d s).Inv := by
  obtain ⟨hparser, hr, hdrained, hidle, -⟩ := (inv_iff s).mp hs
  exact (inv_iff _).mpr ⟨hparser, hr, hdrained, hidle, hd⟩

theorem inv_afterAppend (u : List Byte) (hs : s.Inv) : (afterAppend u s).Inv := by
  obtain ⟨hparser, hr, hdrained, hidle, hfb⟩ := (inv_iff s).mp hs
  unfold afterAppend
  split
  next hfits =>
    exact (inv_iff _).mpr ⟨hparser, hr, hdrained, hidle, by rw [List.length_append]; exact hfits⟩
  next => exact (inv_iff _).mpr ⟨hparser, hr, hdrained, hidle, hfb⟩

theorem inv_enqueue (hs : s.Inv) (hopen : s.r.isOpen = true) (htype : notReplyType s.fb.msgType) :
    (afterDrain (setQueue (s.r.queue ++ [s.fb]) s)).Inv := by
  obtain ⟨-, hr, -, -, hfb⟩ := (inv_iff s).mp hs
  have hqueued : (setQueue (s.r.queue ++ [s.fb]) s).r.Sound := by
    refine ⟨hr.timer_iff_pending, fun hclosed => absurd hopen ?_, hr.pending_is_legal, fun d hd => ?_⟩
    · rw [show s.r.isOpen = false from hclosed]
      decide
    · rcases List.mem_append.mp hd with hd | hd
      · exact hr.queue_is_legal d hd
      · rw [List.mem_singleton.mp hd]
        exact ⟨hfb, htype⟩
  exact hs.of_link ((linkStep_setQueue _ _ s).trans (linkStep_drain _)) (afterDrain_p _) hqueued.afterDrain

/-- The invariant does not speak of the CRC port, the inputs, the DOM port or the outputs. -/
theorem State.Inv.of_eq (hs : s.Inv) (hp : t.p = s.p) (hr : t.r = s.r) (hfb : t.fb = s.fb) : t.Inv := by
  rw [inv_iff] at hs ⊢
  rwa [hp, hr, hfb]

/-- Every instruction keeps the invariant (R40). -/
theorem Effect.inv {i : Instr} (h : Effect s i t) (hs : s.Inv) : t.Inv := by
  obtain ⟨hparser, hr, hdrained, hidle, hfb⟩ := (inv_iff s).mp hs
  cases h with
  | reset draw => exact inv_resetWith draw s
  | openChannel => exact inv_setOpen_true hs
  | close => exact inv_afterClose hs
  | shutGate => exact inv_setGate_false hs
  | openGate => exact inv_afterDrain_setGate_true hs
  | newFrame t r m => exact inv_setBuilder hs (Nat.zero_le _)
  | append u => exact inv_afterAppend u hs
  | send d hi hpayload htype =>
    have hd : LegalFrame d.msgType d.payload := by
      refine ⟨?_, htype⟩
      rcases hpayload with rfl | hone
      · exact hfb
      · omega
    exact hs.of_link (linkStep_send d s) (afterDirectSend_p d s) (hr.afterDirectSend hdrained hd)
  | enqueue hopen htype => exact inv_enqueue hs hopen htype
  | receiveByte b => exact inv_rxByte b s hs
  | receiveFrame bytes => exact rxBytes_induction State.Inv inv_rxByte bytes s hs
  | dropSession =>
    exact (inv_iff _).mpr ⟨Parser.sound_of_idle rfl rfl hparser.payload_is_counted, hr, hdrained, fun _ => rfl, hfb⟩
  | expire x hpending =>
    exact hs.of_link (linkStep_expire x hpending) (afterRetry_p x s) (hr.afterRetry hpending)
  | expireEmpty hpending =>
    refine (inv_iff _).mpr ⟨hparser, ⟨?_, hr.closed_is_clean, hr.pending_is_legal, hr.queue_is_legal⟩, hdrained, hidle,
      hfb⟩
    rw [cancelReply_r, hpending]
    rfl
  | closeIgnored | crcInit | crcUpdate | crcValue | dropQueued | deadlineIgnored | timeoutIgnored =>
    exact hs.of_eq rfl rfl rfl

/-! ## A shut gate -/

/-- What is transmitted is an Ack or a Nack. -/
def TxIsReply (o : Output) : Prop :=
  ∀ bytes, o = .tx bytes → ∃ tid, bytes = ackBytes tid ∨ ∃ reason, bytes = nackBytes tid reason

theorem txIsReply_of_isUngated : ∀ o, IsUngated o → TxIsReply o := by
  rintro o h bytes rfl
  exact h

/-- The invariants and a shut gate hold before every byte that is received, if they hold before the first. -/
theorem inv_gate_shut_rxByte (b : Byte) (s : State) (h : s.Inv ∧ s.r.replyGranted = false) :
    (rxByte b s).Inv ∧ (rxByte b s).r.replyGranted = false :=
  ⟨inv_rxByte b s h.1, (linkStep_rxBytes_notStatus [b] s).gate.trans h.2⟩

/-- The Pending Exchange is neither an Ack nor a Nack, so a shut gate holds it (item 7). -/
theorem mayTransmit_of_gate_shut {P : Output → Prop} (s : State) (h : s.Inv ∧ s.r.replyGranted = false) :
    MayTransmit P s := by
  obtain ⟨hs, hgate⟩ := h
  refine .inr ⟨hgate, fun x hx => ?_⟩
  obtain ⟨-, -, htype⟩ := hs.pending_is_legal x hx
  exact htype

theorem linkStep_rxBytes_gate_shut (bytes : List Byte) (h : s.Inv ∧ s.r.replyGranted = false) :
    LinkStep TxIsReply s (rxBytes bytes s) :=
  linkStep_rxBytes inv_gate_shut_rxByte mayTransmit_of_gate_shut txIsReply_of_isUngated bytes h

theorem linkStep_send_gate_shut {d : Descriptor} (hgate : s.r.replyGranted = false) (hd : notReplyType d.msgType) :
    LinkStep TxIsReply s (afterDirectSend d s) := by
  refine linkStep_afterDirectSend (fun _ _ => nofun) ?_
  rintro (hopen | hack | hnack)
  · rw [hgate] at hopen
    cases hopen
  · exact absurd hack hd.1
  · exact absurd hnack hd.2

/-- While the gate is shut every instruction but the one that opens it transmits replies only (R188). -/
theorem Effect.addsOutputs_gate_shut {i : Instr} (h : Effect s i t) (hs : s.Inv) (hgate : s.r.replyGranted = false)
    (hi : i ≠ .setReplyGranted true) : AddsOutputs TxIsReply s t := by
  cases h with
  | close =>
    refine ⟨rfl, rfl, closeReport s, rfl, fun o ho => ?_⟩
    obtain ⟨x, rfl⟩ := eq_messageCompleted_of_mem_closeReport ho
    nofun
  | openGate => exact absurd rfl hi
  | crcValue => exact .one rfl rfl rfl nofun
  | append u => exact addsOutputs_afterAppend (fun _ _ => nofun) u s
  | send d hsend hpayload htype => exact (linkStep_send_gate_shut hgate htype).addsOutputs fun _ => id
  | enqueue => rw [afterDrain_of_gate_shut (by exact hgate)]; exact .none rfl rfl rfl
  | dropQueued => exact .one rfl rfl rfl nofun
  | receiveByte b => exact (linkStep_rxBytes_gate_shut [b] ⟨hs, hgate⟩).addsOutputs fun _ => id
  | receiveFrame bytes => exact (linkStep_rxBytes_gate_shut bytes ⟨hs, hgate⟩).addsOutputs fun _ => id
  | dropSession => exact .one rfl rfl rfl nofun
  | expire x hpending =>
    exact (linkStep_afterRetry (mayTransmit_of_gate_shut s ⟨hs, hgate⟩) txIsReply_of_isUngated hpending).addsOutputs
      fun _ => id
  | reset | openChannel | closeIgnored | shutGate | crcInit | crcUpdate | newFrame | deadlineIgnored | expireEmpty
  | timeoutIgnored => exact .none rfl rfl rfl

end

end Sys2Proof.Machine

namespace Sys2Proof.Proofs

open Sys2Proof Sys2Proof.Machine

/-- Settles O45: the state after reset is the one that RESET leaves, up to the registers that the invariant does not name. -/
theorem invariantsHoldAtReset : Obligations.InvariantsHoldAtReset :=
  (inv_resetWith ⟨0, 0, 0, 0, 0, 0, 0⟩ State.reset).of_eq rfl rfl rfl

/-- Settles O46: a step that waits changes nothing that the invariant names; one that executes has an effect that keeps it. -/
theorem everyStepKeepsInvariants : Obligations.EveryStepKeepsInvariants := by
  intro s t hs hstep
  rcases step_next_cases hstep with ⟨ws, rfl⟩ | ⟨w, rest, i, left, -, -, hexec⟩
  · exact hs.of_eq rfl rfl rfl
  · exact (effect_of_exec hexec).inv (hs.of_eq rfl rfl rfl)

/-- Settles O47. -/
theorem closedGateTransmitsOnlyReplies : Obligations.ClosedGateTransmitsOnlyReplies := by
  intro i s t hs hgate hi hexec
  obtain ⟨outs, hout, hreply⟩ := ((effect_of_exec hexec).addsOutputs_gate_shut hs hgate hi).outputs
  exact ⟨outs, hout, fun bytes hmem => hreply _ hmem bytes rfl⟩

end Sys2Proof.Proofs
end

section
/-! SUPPORT. Which instructions are refused (43_reliability_commands.md section 5), what no instruction but the CRC events and
RESET reads (70_reset_and_hazards.md section 3), and the step on a decoded word (00_scope.md section 5). Then the statements
about them. -/

namespace Sys2Proof.Machine

/-! ## Refusals -/

theorem exec_replyTimeoutFire_completes (s : State) : ∃ t, exec .replyTimeoutFire s = .next t := by
  cases harmed : s.r.replyTimerArmed with
  | false => exact ⟨_, exec_replyTimeoutFire_stale harmed⟩
  | true =>
    cases hpending : s.r.pending with
    | none => exact ⟨_, exec_replyTimeoutFire_empty harmed hpending⟩
    | some x => exact ⟨_, exec_replyTimeoutFire_pending harmed hpending⟩

/-- Only the two events that commit a frame the host has built can be refused (60_exceptions.md R250). -/
theorem exec_completes {i : Instr} (hsend : i ≠ .sendMessage) (hqueue : i ≠ .queueMessage) (s : State) :
    ∃ t, exec i s = .next t := by
  cases i with
  | sendMessage => exact absurd rfl hsend
  | queueMessage => exact absurd rfl hqueue
  | frameDeadlineFire => exact ⟨_, exec_frameDeadlineFire s⟩
  | replyTimeoutFire => exact exec_replyTimeoutFire_completes s
  | reset | openChannel | closeChannel | setReplyGranted | crcInit | crcUpdate | crcValue | fbNew | fbAppendU8
  | fbAppendU16 | fbAppendU32 | fbAppendRaw | sendRequest | rxByte | frameStatus | frameAck | frameNack | frameRequest
  | frameDomain => exact ⟨_, rfl⟩

/-! ## The CRC port is nobody else's -/

section
variable (a : U16) (s : State)

theorem afterAppend_setAcc (u : List Byte) : afterAppend u (setAcc a s) = setAcc a (afterAppend u s) := by
  unfold afterAppend
  rw [apply_ite (setAcc a)]
  rfl

theorem afterDrain_setAcc : afterDrain (setAcc a s) = setAcc a (afterDrain s) := by
  unfold afterDrain
  rw [setAcc_r]
  cases s.r.queue with
  | nil => rfl
  | cons d rest =>
    simp only [apply_ite (setAcc a)]
    rfl

theorem afterExchange_setAcc (outs : List Output) :
    afterExchange outs (setAcc a s) = setAcc a (afterExchange outs s) :=
  afterDrain_setAcc a (saying outs (releaseSlot s))

theorem afterRetry_setAcc (x : Pending) : afterRetry x (setAcc a s) = setAcc a (afterRetry x s) := by
  unfold afterRetry
  rw [afterExchange_setAcc, apply_ite (setAcc a)]
  rfl

theorem afterDirectSend_setAcc (d : Descriptor) : afterDirectSend d (setAcc a s) = setAcc a (afterDirectSend d s) := by
  unfold afterDirectSend
  simp only [apply_ite (setAcc a)]
  rfl

/-- A dispatch reads the exchange, the gate and the DOM port, none of which is the CRC port. -/
theorem dispatch_setAcc (f : Frame) : dispatch f (setAcc a s) = setAcc a (dispatch f s) := by
  have hack : onAck f (setAcc a s) = setAcc a (onAck f s) := by
    cases hmatch : matchingExchange f.tid s with
    | none => rw [onAck_unmatched f s hmatch, onAck_unmatched f (setAcc a s) hmatch]; rfl
    | some x => rw [onAck_matched f s x hmatch, onAck_matched f (setAcc a s) x hmatch, afterExchange_setAcc]
  have hnack : onNack f (setAcc a s) = setAcc a (onNack f s) := by
    cases hmatch : matchingExchange f.tid s with
    | none => rw [onNack_unmatched f s hmatch, onNack_unmatched f (setAcc a s) hmatch]; rfl
    | some x => rw [onNack_matched f s x hmatch, onNack_matched f (setAcc a s) x hmatch, afterRetry_setAcc]
  have hrequest : onRequest f (setAcc a s) = setAcc a (onRequest f s) := by
    rw [onRequest_eq, onRequest_eq]
    rfl
  have hdomain : onDomain f (setAcc a s) = setAcc a (onDomain f s) := by
    rw [onDomain_eq, onDomain_eq]
    rfl
  unfold dispatch
  rw [hack, hnack, hrequest, hdomain]
  simp only [apply_ite (setAcc a)]

theorem rxOpen_setAcc (b : Byte) : rxOpen b (setAcc a s) = setAcc a (rxOpen b s) := by
  have hcrc2 : rxCrc2 b (setAcc a s) = setAcc a (rxCrc2 b s) := by
    by_cases hmatch : withHighByte s.p.rxCrc b = s.p.crc
    · rw [rxCrc2_of_match hmatch, rxCrc2_of_match (s := setAcc a s) hmatch, ← dispatch_setAcc]
      rfl
    · rw [rxCrc2_of_mismatch hmatch, rxCrc2_of_mismatch (s := setAcc a s) hmatch]
      rfl
  cases hstate : s.p.state with
  | idle =>
    rw [rxOpen_idle b hstate, rxOpen_idle b (s := setAcc a s) hstate, rxIdle, rxIdle, apply_ite (setAcc a)]
    rfl
  | preamble2 =>
    rw [rxOpen_preamble2 b hstate, rxOpen_preamble2 b (s := setAcc a s) hstate, rxPreamble2, rxPreamble2,
      apply_ite (setAcc a)]
    rfl
  | msgType => rw [rxOpen_msgType b hstate, rxOpen_msgType b (s := setAcc a s) hstate]; rfl
  | transactionId => rw [rxOpen_transactionId b hstate, rxOpen_transactionId b (s := setAcc a s) hstate]; rfl
  | length1 => rw [rxOpen_length1 b hstate, rxOpen_length1 b (s := setAcc a s) hstate]; rfl
  | length2 =>
    rw [rxOpen_length2 b hstate, rxOpen_length2 b (s := setAcc a s) hstate]
    by_cases hfits : (withHighByte s.p.length b).toNat ≤ 512
    · rw [rxLength2_of_fits hfits, rxLength2_of_fits (s := setAcc a s) hfits]
      rfl
    · have hbig : 512 < (withHighByte s.p.length b).toNat := by omega
      rw [rxLength2_of_oversized hbig, rxLength2_of_oversized (s := setAcc a s) hbig]
      rfl
  | payload =>
    rw [rxOpen_payload b hstate, rxOpen_payload b (s := setAcc a s) hstate, rxPayload_eq b hstate,
      rxPayload_eq b (s := setAcc a s) hstate]
    rfl
  | crc1 => rw [rxOpen_crc1 b hstate, rxOpen_crc1 b (s := setAcc a s) hstate]; rfl
  | crc2 => rw [rxOpen_crc2 b hstate, rxOpen_crc2 b (s := setAcc a s) hstate, hcrc2]

theorem rxByte_setAcc (b : Byte) : rxByte b (setAcc a s) = setAcc a (rxByte b s) := by
  unfold rxByte
  rw [rxOpen_setAcc, apply_ite (setAcc a)]
  rfl

theorem rxBytes_setAcc (bytes : List Byte) : rxBytes bytes (setAcc a s) = setAcc a (rxBytes bytes s) := by
  induction bytes generalizing s with
  | nil => rfl
  | cons b bytes ih => rw [rxBytes_cons, rxByte_setAcc, ih, rxBytes_cons]

end

/-- The outcome with its next state changed. -/
def mapNext (f : State → State) : Host.Outcome State Fault Refusal → Host.Outcome State Fault Refusal
  | .next t => .next (f t)
  | .fault r => .fault r
  | .refused r => .refused r

/-- The instructions to which the CRC port belongs. -/
def OwnsCrcPort (i : Instr) : Prop := i = .reset ∨ i = .crcInit ∨ (∃ b, i = .crcUpdate b) ∨ i = .crcValue

theorem exec_queueMessage_setAcc (a : U16) (s : State) :
    exec .queueMessage (setAcc a s) = mapNext (setAcc a) (exec .queueMessage s) := by
  by_cases hreply : s.fb.msgType = 1 ∨ s.fb.msgType = 2
  · rw [exec_queueMessage_refused hreply, exec_queueMessage_refused (s := setAcc a s) hreply]
    rfl
  · rw [exec_queueMessage hreply, exec_queueMessage (s := setAcc a s) hreply]
    simp only [apply_ite (mapNext (setAcc a))]
    simp only [mapNext, ← afterDrain_setAcc]
    rfl

theorem exec_sendMessage_setAcc (a : U16) (s : State) :
    exec .sendMessage (setAcc a s) = mapNext (setAcc a) (exec .sendMessage s) := by
  by_cases hreply : s.fb.msgType = 1 ∨ s.fb.msgType = 2
  · rw [exec_sendMessage_refused hreply, exec_sendMessage_refused (s := setAcc a s) hreply]
    rfl
  · rw [exec_sendMessage hreply, exec_sendMessage (s := setAcc a s) hreply, afterDirectSend_setAcc]
    rfl

theorem exec_replyTimeoutFire_setAcc (a : U16) (s : State) :
    exec .replyTimeoutFire (setAcc a s) = mapNext (setAcc a) (exec .replyTimeoutFire s) := by
  cases harmed : s.r.replyTimerArmed with
  | false =>
    rw [exec_replyTimeoutFire_stale harmed, exec_replyTimeoutFire_stale (s := setAcc a s) harmed]
    rfl
  | true =>
    cases hpending : s.r.pending with
    | none =>
      rw [exec_replyTimeoutFire_empty harmed hpending, exec_replyTimeoutFire_empty (s := setAcc a s) harmed hpending]
      rfl
    | some x =>
      rw [exec_replyTimeoutFire_pending harmed hpending,
        exec_replyTimeoutFire_pending (s := setAcc a s) harmed hpending, afterRetry_setAcc]
      rfl

/-- Every other instruction does the same whatever the CRC port holds, and leaves it there (D6). -/
theorem exec_setAcc {i : Instr} (hi : ¬ OwnsCrcPort i) (a : U16) (s : State) :
    exec i (setAcc a s) = mapNext (setAcc a) (exec i s) := by
  have hframe (hframe : i.isEvent = false) : exec i (setAcc a s) = mapNext (setAcc a) (exec i s) := by
    rw [exec_of_isEvent_false hframe, exec_of_isEvent_false hframe, rxBytes_setAcc]
    rfl
  cases i with
  | reset => exact absurd (.inl rfl) hi
  | crcInit => exact absurd (.inr (.inl rfl)) hi
  | crcUpdate b => exact absurd (.inr (.inr (.inl ⟨b, rfl⟩))) hi
  | crcValue => exact absurd (.inr (.inr (.inr rfl))) hi
  | openChannel => rw [exec_openChannel, exec_openChannel]; rfl
  | closeChannel => rw [exec_closeChannel, exec_closeChannel, mapNext, apply_ite (setAcc a)]; rfl
  | setReplyGranted v =>
    cases v
    · rfl
    · rw [exec_setReplyGranted_true, exec_setReplyGranted_true, mapNext, ← afterDrain_setAcc]; rfl
  | fbNew t r m => rfl
  | fbAppendU8 v => rw [exec_fbAppendU8, exec_fbAppendU8, afterAppend_setAcc]; rfl
  | fbAppendU16 v => rw [exec_fbAppendU16, exec_fbAppendU16, afterAppend_setAcc]; rfl
  | fbAppendU32 v => rw [exec_fbAppendU32, exec_fbAppendU32, afterAppend_setAcc]; rfl
  | fbAppendRaw u => rw [exec_fbAppendRaw, exec_fbAppendRaw, afterAppend_setAcc]; rfl
  | sendMessage => exact exec_sendMessage_setAcc a s
  | sendRequest q => rw [exec_sendRequest, exec_sendRequest, afterDirectSend_setAcc]; rfl
  | queueMessage => exact exec_queueMessage_setAcc a s
  | rxByte b => rw [exec_rxByte, exec_rxByte, rxByte_setAcc]; rfl
  | frameDeadlineFire => rw [exec_frameDeadlineFire, exec_frameDeadlineFire, mapNext, apply_ite (setAcc a)]; rfl
  | replyTimeoutFire => exact exec_replyTimeoutFire_setAcc a s
  | frameStatus tid payload crc => exact hframe rfl
  | frameAck tid payload crc => exact hframe rfl
  | frameNack tid payload crc => exact hframe rfl
  | frameRequest tid payload crc => exact hframe rfl
  | frameDomain msgType tid payload crc => exact hframe rfl

/-! ## The step on a decoded word -/

theorem step_of_inputs_nil {s : State} (h : s.inputs = []) : step s = .next s := by
  simp only [step, fetch, h]

theorem step_of_truncated {s : State} {w : InputWord} {rest : List InputWord} (h : s.inputs = w :: rest)
    (hdecode : decodeNext w = .error .truncated) : step s = .next { s with inputs := awaitRest w rest } := by
  simp only [step, fetch, h, hdecode]

theorem step_of_reserved {s : State} {w : InputWord} {rest : List InputWord} {e : DecodeError} (h : s.inputs = w :: rest)
    (hdecode : decodeNext w = .error e) (he : e ≠ .truncated) : step s = .refused (.reservedWord e) := by
  cases e with
  | truncated => exact absurd rfl he
  | reservedOpcode | reservedOperand | trailingBytes | noPreamble | oversizedLength => simp only [step, fetch, h, hdecode]

theorem unread_nil (w : InputWord) : unread w [] = [] := by cases w <;> rfl

end Sys2Proof.Machine

namespace Sys2Proof.Proofs

open Sys2Proof Sys2Proof.Machine

/-- Settles O42. -/
theorem onlyReservedCommitsAreRefused : Obligations.OnlyReservedCommitsAreRefused := by
  intro i s hostReply overflow
  refine ⟨?reserved, ?full, ?completes⟩
  case reserved =>
    rintro ⟨rfl | rfl, hreply⟩
    · exact exec_sendMessage_refused hreply
    · exact exec_queueMessage_refused hreply
  case full =>
    rintro hhost ⟨rfl, hopen, hfull⟩
    rw [exec_queueMessage fun hreply => hhost ⟨.inr rfl, hreply⟩, if_neg (by rw [hopen]; decide),
      if_pos ((queueFull_iff s).mpr hfull)]
  case completes =>
    intro hhost hroom
    by_cases hsend : i = .sendMessage
    · subst hsend
      exact ⟨_, exec_sendMessage fun hreply => hhost ⟨.inl rfl, hreply⟩⟩
    by_cases hqueue : i = .queueMessage
    · subst hqueue
      rw [exec_queueMessage fun hreply => hhost ⟨.inr rfl, hreply⟩]
      split
      next => exact ⟨_, rfl⟩
      next hopen =>
        rw [if_neg fun hfull => hroom ⟨rfl, by simpa using hopen, (queueFull_iff s).mp hfull⟩]
        exact ⟨_, rfl⟩
    · exact exec_completes hsend hqueue s

/-- Settles O50: with the accumulator that is there already, `exec_setAcc` says that it stays. -/
theorem otherUnitsIgnoreTheCrcPort : Obligations.OtherUnitsIgnoreTheCrcPort := by
  intro i s t a hreset hinit hupdate hvalue hexec
  have hi : ¬ OwnsCrcPort i := by
    rintro (h | h | ⟨b, h⟩ | h)
    · exact hreset h
    · exact hinit h
    · exact hupdate b h
    · exact hvalue h
  have hsame (a : U16) : exec i (setAcc a s) = .next (setAcc a t) := by rw [exec_setAcc hi, hexec]; rfl
  refine ⟨?_, hsame a⟩
  have hkept : t = setAcc s.crc.acc t := Host.Outcome.next.inj (hexec.symm.trans (hsame s.crc.acc))
  calc t.crc = (setAcc s.crc.acc t).crc := congrArg State.crc hkept
    _ = s.crc := rfl

/-- Settles O53. -/
theorem stepRunsTheDecodedWord : Obligations.StepRunsTheDecodedWord := by
  refine ⟨fun s => step_of_inputs_nil, fun s w rest i hinputs hdecode => ?_,
    fun s w rest i left => step_of_decodeNext, fun s w rest => step_of_truncated,
    fun s w rest e => step_of_reserved⟩
  rw [step_of_decodeNext hinputs (decodeNext_of_decodeInput hdecode), unread_nil]
  rfl

end Sys2Proof.Proofs
end

section
/-! SUPPORT. The decoder and the encoder are inverse, format by format (30_encoding.md R80, R85, R88, R92), and what the bytes of
the receive stream are read as (R91, R101). Then the statements about them. -/

namespace Sys2Proof.Machine

/-! ## Wire frames -/

theorem frameBytes_append (t tid : Byte) (payload : List Byte) (crc : U16) (rest : List Byte) :
    frameBytes t tid payload crc ++ rest =
      Config.preamble1 :: Config.preamble2 :: t :: tid ::
        lowByte (BitVec.ofNat 16 payload.length) :: highByte (BitVec.ofNat 16 payload.length) ::
          (payload ++ lowByte crc :: highByte crc :: rest) := by
  simp [frameBytes, headerBytes, bytesOfU16]

theorem decodeFrameBody_append (t tid : Byte) (payload : List Byte) (crc : U16) (rest : List Byte) :
    decodeFrameBody t tid payload.length (payload ++ lowByte crc :: highByte crc :: rest) =
      .ok (frameInstr t tid payload crc, rest) := by
  simp [decodeFrameBody]

/-- A frame that fits is read as the row of its message type, whatever bytes follow. -/
theorem decodeFrame_frameBytes (t tid : Byte) {payload : List Byte} (crc : U16) (rest : List Byte)
    (hfits : payload.length ≤ 512) :
    decodeFrame (frameBytes t tid payload crc ++ rest) = .ok (frameInstr t tid payload crc, rest) := by
  have hsmall : ¬ Config.maxPayload < payload.length := Nat.not_lt.mpr hfits
  rw [frameBytes_append, decodeFrame, u16Of_low_high, length_field_toNat payload hfits, if_pos ⟨rfl, rfl⟩, if_neg hsmall,
    decodeFrameBody_append]

theorem decodeFrameBody_eq_ok {t tid : Byte} {n : Nat} {body rest : List Byte} {i : Instr}
    (h : decodeFrameBody t tid n body = .ok (i, rest)) :
    ∃ payload crc, payload.length = n ∧ body = payload ++ bytesOfU16 crc ++ rest ∧ i = frameInstr t tid payload crc := by
  unfold decodeFrameBody at h
  split at h
  next => cases h
  next hlong =>
    split at h
    next c d rest' hdrop =>
      cases h
      refine ⟨body.take n, u16Of c d, List.length_take_of_le (Nat.le_of_not_lt hlong), ?_, rfl⟩
      rw [bytesOfU16, lowByte_u16Of, highByte_u16Of, List.append_assoc]
      exact (List.take_append_drop n body).symm.trans (congrArg _ hdrop)
    next => cases h

/-- What is read as a frame is the bytes of that frame. -/
theorem decodeFrame_eq_ok {bytes rest : List Byte} {i : Instr} (h : decodeFrame bytes = .ok (i, rest)) :
    ∃ t tid payload crc, payload.length ≤ 512 ∧ bytes = frameBytes t tid payload crc ++ rest ∧
      i = frameInstr t tid payload crc := by
  unfold decodeFrame at h
  split at h
  next p1 p2 t tid l hi body =>
    split at h
    next hpreamble =>
      split at h
      next => cases h
      next hsmall =>
        obtain ⟨hp1, hp2⟩ := hpreamble
        obtain ⟨payload, crc, hlength, hbody, hi'⟩ := decodeFrameBody_eq_ok h
        have hfits : payload.length ≤ 512 := hlength ▸ Nat.le_of_not_lt hsmall
        have hfield : BitVec.ofNat 16 payload.length = u16Of l hi := by
          rw [hlength, BitVec.ofNat_toNat, BitVec.setWidth_eq]
        refine ⟨t, tid, payload, crc, hfits, ?_, hi'⟩
        rw [frameBytes_append, hfield, lowByte_u16Of, highByte_u16Of, hp1, hp2, hbody, List.append_assoc]
        rfl
    next => cases h
  next => cases h

/-- The row of a message type is not an event row, encodes the frame's bytes, and is well-formed when the payload fits. -/
theorem frameInstr_spec (t tid : Byte) (payload : List Byte) (crc : U16) :
    (frameInstr t tid payload crc).isEvent = false ∧
    encode (frameInstr t tid payload crc) = frameBytes t tid payload crc ∧
    ((frameInstr t tid payload crc).wellFormed = true ↔ payload.length ≤ 512) := by
  have hfits := Laws.payloadFits_iff payload
  unfold frameInstr
  by_cases h0 : t = Config.msgStatus
  · rw [if_pos h0, h0]; exact ⟨rfl, rfl, hfits⟩
  by_cases h1 : t = Config.msgAck
  · rw [if_neg h0, if_pos h1, h1]; exact ⟨rfl, rfl, hfits⟩
  by_cases h2 : t = Config.msgNack
  · rw [if_neg h0, if_neg h1, if_pos h2, h2]; exact ⟨rfl, rfl, hfits⟩
  by_cases h3 : t = Config.msgRequest
  · rw [if_neg h0, if_neg h1, if_neg h2, if_pos h3, h3]; exact ⟨rfl, rfl, hfits⟩
  · have hdomain : 4 ≤ t.toNat := by
      simp only [Config.msgStatus, Config.msgAck, Config.msgNack, Config.msgRequest] at h0 h1 h2 h3
      bv_omega
    rw [if_neg h0, if_neg h1, if_neg h2, if_neg h3]
    refine ⟨rfl, rfl, ?_⟩
    simp only [Instr.wellFormed, Bool.and_eq_true, hfits]
    exact and_iff_right (decide_eq_true hdomain)

/-- A message type from 4 on has the row FRAME.DOMAIN (R102). -/
theorem frameInstr_domain {t : Byte} (h : 4 ≤ t.toNat) (tid : Byte) (payload : List Byte) (crc : U16) :
    frameInstr t tid payload crc = .frameDomain t tid payload crc := by
  have hne (c : Byte) (hc : c.toNat < 4) : t ≠ c := fun heq => by rw [heq] at h; omega
  rw [frameInstr, if_neg (hne _ (by decide)), if_neg (hne _ (by decide)), if_neg (hne _ (by decide)),
    if_neg (hne _ (by decide))]

/-- Every well-formed frame row is the row of its message type, with a payload that fits. -/
theorem eq_frameInstr_of_wellFormed {i : Instr} (hframe : i.isEvent = false) (h : i.wellFormed = true) :
    ∃ t tid payload crc, payload.length ≤ 512 ∧ i = frameInstr t tid payload crc := by
  cases i with
  | frameStatus tid payload crc => exact ⟨0, tid, payload, crc, (Laws.payloadFits_iff payload).mp h, rfl⟩
  | frameAck tid payload crc => exact ⟨1, tid, payload, crc, (Laws.payloadFits_iff payload).mp h, rfl⟩
  | frameNack tid payload crc => exact ⟨2, tid, payload, crc, (Laws.payloadFits_iff payload).mp h, rfl⟩
  | frameRequest tid payload crc => exact ⟨3, tid, payload, crc, (Laws.payloadFits_iff payload).mp h, rfl⟩
  | frameDomain t tid payload crc =>
    simp only [Instr.wellFormed, Bool.and_eq_true, Laws.payloadFits_iff] at h
    obtain ⟨htype, hfits⟩ := h
    exact ⟨t, tid, payload, crc, hfits, (frameInstr_domain (of_decide_eq_true htype) tid payload crc).symm⟩
  | reset | openChannel | closeChannel | setReplyGranted | crcInit | crcUpdate | crcValue | fbNew | fbAppendU8
  | fbAppendU16 | fbAppendU32 | fbAppendRaw | sendMessage | sendRequest | queueMessage | rxByte | frameDeadlineFire
  | replyTimeoutFire => cases hframe

theorem decodeFrame_encode {i : Instr} (hframe : i.isEvent = false) (h : i.wellFormed = true) (rest : List Byte) :
    decodeFrame (encode i ++ rest) = .ok (i, rest) := by
  obtain ⟨t, tid, payload, crc, hfits, rfl⟩ := eq_frameInstr_of_wellFormed hframe h
  obtain ⟨-, hencode, -⟩ := frameInstr_spec t tid payload crc
  rw [hencode, decodeFrame_frameBytes t tid crc rest hfits]

/-- What is read as a frame is the encoding of the well-formed frame row that the decoder answers. -/
theorem encode_of_decodeFrame {bytes rest : List Byte} {i : Instr} (h : decodeFrame bytes = .ok (i, rest)) :
    i.isEvent = false ∧ i.wellFormed = true ∧ bytes = encode i ++ rest := by
  obtain ⟨t, tid, payload, crc, hfits, hbytes, rfl⟩ := decodeFrame_eq_ok h
  obtain ⟨hframe, hencode, hwf⟩ := frameInstr_spec t tid payload crc
  exact ⟨hframe, hwf.mpr hfits, by rw [hencode, hbytes]⟩

/-! ## Event words -/

@[simp] theorem bitOperand_byteOfBool (v : Bool) : bitOperand (byteOfBool v) = .ok v := by cases v <;> rfl

theorem bitOperand_eq_ok {a : Byte} {v : Bool} (h : bitOperand a = .ok v) : a = byteOfBool v := by
  unfold bitOperand at h
  split at h
  next h0 => cases h; exact h0
  next =>
    split at h
    next h1 => cases h; exact h1
    next => cases h

theorem bitOperand_reserved {a : Byte} (h : 1 < a.toNat) : bitOperand a = .error .reservedOperand := by
  have hne (c : Byte) (hc : c.toNat ≤ 1) : a ≠ c := fun heq => by rw [heq] at h; omega
  rw [bitOperand, if_neg (hne 0 (by decide)), if_neg (hne 1 (by decide))]

theorem decodeE1_eq_ok {f : Byte → Except DecodeError Instr} {bytes rest : List Byte} {i : Instr}
    (h : decodeE1 f bytes = .ok (i, rest)) : ∃ a, bytes = a :: rest ∧ f a = .ok i := by
  unfold decodeE1 at h
  split at h
  next a rest' =>
    split at h
    next i' hf => cases h; exact ⟨a, rfl, hf⟩
    next => cases h
  next => cases h

theorem decodeE2_bytesOfU16 (f : U16 → Instr) (v : U16) (rest : List Byte) :
    decodeE2 f (bytesOfU16 v ++ rest) = .ok (f v, rest) := by
  simp [bytesOfU16, decodeE2]

theorem decodeE2_eq_ok {f : U16 → Instr} {bytes rest : List Byte} {i : Instr} (h : decodeE2 f bytes = .ok (i, rest)) :
    ∃ v, bytes = bytesOfU16 v ++ rest ∧ i = f v := by
  unfold decodeE2 at h
  split at h
  next l hi rest' => cases h; exact ⟨u16Of l hi, by simp [bytesOfU16], rfl⟩
  next => cases h

theorem decodeE4_bytesOfU32 (f : U32 → Instr) (v : U32) (rest : List Byte) :
    decodeE4 f (bytesOfU32 v ++ rest) = .ok (f v, rest) := by
  simp [bytesOfU32, decodeE4]

theorem decodeE4_eq_ok {f : U32 → Instr} {bytes rest : List Byte} {i : Instr} (h : decodeE4 f bytes = .ok (i, rest)) :
    ∃ v, bytes = bytesOfU32 v ++ rest ∧ i = f v := by
  unfold decodeE4 at h
  split at h
  next b0 b1 b2 b3 rest' => cases h; exact ⟨u32Of b0 b1 b2 b3, by rw [bytesOfU32_u32Of]; rfl, rfl⟩
  next => cases h

theorem decodeEN_eq_ok {bytes rest : List Byte} {i : Instr} (h : decodeEN bytes = .ok (i, rest)) :
    ∃ t r m, bytes = t :: byteOfBool r :: bytesOfU16 m ++ rest ∧ i = .fbNew t r m := by
  unfold decodeEN at h
  split at h
  next t f l hi rest' =>
    split at h
    next r hr => cases h; exact ⟨t, r, u16Of l hi, by simp [bytesOfU16, bitOperand_eq_ok hr], rfl⟩
    next => cases h
  next => cases h

theorem decodeER_append {u : List Byte} (rest : List Byte) (h : u.length ≤ 512) :
    decodeER (bytesOfU16 (BitVec.ofNat 16 u.length) ++ u ++ rest) = .ok (.fbAppendRaw u, rest) := by
  have hsmall : ¬ Config.maxPayload < u.length := Nat.not_lt.mpr h
  have hlength : (BitVec.ofNat 16 u.length).toNat = u.length := length_field_toNat u h
  simp only [bytesOfU16, List.cons_append, List.nil_append, decodeER, u16Of_low_high, hlength, if_neg hsmall]
  simp

theorem decodeER_eq_ok {bytes rest : List Byte} {i : Instr} (h : decodeER bytes = .ok (i, rest)) :
    ∃ u, u.length ≤ 512 ∧ bytes = bytesOfU16 (BitVec.ofNat 16 u.length) ++ u ++ rest ∧ i = .fbAppendRaw u := by
  unfold decodeER at h
  split at h
  next l hi body =>
    split at h
    next => cases h
    next hsmall =>
      split at h
      next => cases h
      next hlong =>
        cases h
        have hlength : (body.take (u16Of l hi).toNat).length = (u16Of l hi).toNat :=
          List.length_take_of_le (Nat.le_of_not_lt hlong)
        refine ⟨_, by rw [hlength]; exact Nat.le_of_not_lt hsmall, ?_, rfl⟩
        rw [hlength, BitVec.ofNat_toNat, BitVec.setWidth_eq]
        simp [bytesOfU16]
  next => cases h

/-- An event word is read back, whatever bytes follow. -/
theorem decodeEvent_encode {i : Instr} (hevent : i.isEvent = true) (h : i.wellFormed = true) (rest : List Byte) :
    decodeEvent (encode i ++ rest) = .ok (i, rest) := by
  cases i with
  | setReplyGranted v => cases v <;> rfl
  | fbNew t r m =>
    change decodeEN (t :: byteOfBool r :: lowByte m :: highByte m :: rest) = _
    simp only [decodeEN, bitOperand_byteOfBool, u16Of_low_high]
  | fbAppendU16 v => exact decodeE2_bytesOfU16 .fbAppendU16 v rest
  | fbAppendU32 v => exact decodeE4_bytesOfU32 .fbAppendU32 v rest
  | fbAppendRaw u => exact decodeER_append rest ((Laws.payloadFits_iff u).mp h)
  | reset | openChannel | closeChannel | crcInit | crcUpdate | crcValue | fbAppendU8 | sendMessage | sendRequest
  | queueMessage | rxByte | frameDeadlineFire | replyTimeoutFire => rfl
  | frameStatus | frameAck | frameNack | frameRequest | frameDomain => cases hevent

section
variable {op : Byte} {body rest : List Byte} {i : Instr}

/-- A word of one byte is the encoding of its instruction. -/
theorem encode_of_bare {j : Instr} {code : Byte} (h : (.ok (j, body) : Decoded) = .ok (i, rest)) (hop : op = code)
    (hj : encode j = [code]) (hwf : j.wellFormed = true) : i.wellFormed = true ∧ op :: body = encode i ++ rest := by
  cases h
  exact ⟨hwf, by rw [hj, hop]; rfl⟩

/-- So is one with a byte operand (format E1). -/
theorem encode_of_decodeE1 {f : Byte → Except DecodeError Instr}
    (hf : ∀ a j, f a = .ok j → j.wellFormed = true ∧ encode j = [op, a]) (h : decodeE1 f body = .ok (i, rest)) :
    i.wellFormed = true ∧ op :: body = encode i ++ rest := by
  obtain ⟨a, rfl, ha⟩ := decodeE1_eq_ok h
  obtain ⟨hwf, hencode⟩ := hf a i ha
  exact ⟨hwf, by rw [hencode]; rfl⟩

/-- A byte operand that may have any value. -/
theorem encode_of_byteOperand {f : Byte → Instr} {code : Byte} (h : decodeE1 (fun a => .ok (f a)) body = .ok (i, rest))
    (hop : op = code) (hwf : ∀ a, (f a).wellFormed = true) (hencode : ∀ a, encode (f a) = [code, a]) :
    i.wellFormed = true ∧ op :: body = encode i ++ rest := by
  refine encode_of_decodeE1 (fun a j hj => ?_) h
  cases hj
  exact ⟨hwf a, hop ▸ hencode a⟩

theorem setReplyGranted_operand (a : Byte) (j : Instr) (h : decodeSetReplyGranted a = .ok j) :
    j.wellFormed = true ∧ encode j = [0x03, a] := by
  unfold decodeSetReplyGranted at h
  split at h
  next v hv => cases h; exact ⟨rfl, by rw [bitOperand_eq_ok hv]; rfl⟩
  next => cases h

/-- One branch of the decoder's chain of opcode tests. -/
theorem decoded_ite {c Q : Prop} [Decidable c] {x y z : Decoded} (h : (if c then x else y) = z) (hthen : c → x = z → Q)
    (helse : y = z → Q) : Q := by
  split at h
  next hc => exact hthen hc h
  next => exact helse h

/-- What is read as an event is the encoding of the well-formed event that the decoder answers. -/
theorem encode_of_decodeEvent (h : decodeEvent (op :: body) = .ok (i, rest)) :
    i.wellFormed = true ∧ op :: body = encode i ++ rest := by
  rw [decodeEvent] at h
  refine decoded_ite h (fun hop h => encode_of_bare h hop rfl rfl) fun h => ?_
  refine decoded_ite h (fun hop h => encode_of_bare h hop rfl rfl) fun h => ?_
  refine decoded_ite h (fun hop h => encode_of_bare h hop rfl rfl) fun h => ?_
  refine decoded_ite h (fun hop h => encode_of_decodeE1 (hop ▸ setReplyGranted_operand) h) fun h => ?_
  refine decoded_ite h (fun hop h => encode_of_bare h hop rfl rfl) fun h => ?_
  refine decoded_ite h (fun hop h => encode_of_byteOperand h hop (fun _ => rfl) fun _ => rfl) fun h => ?_
  refine decoded_ite h (fun hop h => encode_of_bare h hop rfl rfl) fun h => ?_
  refine decoded_ite h (fun hop h => ?_) fun h => ?_
  · obtain ⟨t, r, m, rfl, rfl⟩ := decodeEN_eq_ok h
    exact ⟨rfl, by rw [hop]; rfl⟩
  refine decoded_ite h (fun hop h => encode_of_byteOperand h hop (fun _ => rfl) fun _ => rfl) fun h => ?_
  refine decoded_ite h (fun hop h => ?_) fun h => ?_
  · obtain ⟨v, rfl, rfl⟩ := decodeE2_eq_ok h
    exact ⟨rfl, by rw [hop]; rfl⟩
  refine decoded_ite h (fun hop h => ?_) fun h => ?_
  · obtain ⟨v, rfl, rfl⟩ := decodeE4_eq_ok h
    exact ⟨rfl, by rw [hop]; rfl⟩
  refine decoded_ite h (fun hop h => ?_) fun h => ?_
  · obtain ⟨u, hfits, rfl, rfl⟩ := decodeER_eq_ok h
    exact ⟨(Laws.payloadFits_iff u).mpr hfits, by rw [hop]; rfl⟩
  refine decoded_ite h (fun hop h => encode_of_bare h hop rfl rfl) fun h => ?_
  refine decoded_ite h (fun hop h => encode_of_byteOperand h hop (fun _ => rfl) fun _ => rfl) fun h => ?_
  refine decoded_ite h (fun hop h => encode_of_bare h hop rfl rfl) fun h => ?_
  refine decoded_ite h (fun hop h => encode_of_byteOperand h hop (fun _ => rfl) fun _ => rfl) fun h => ?_
  refine decoded_ite h (fun hop h => encode_of_bare h hop rfl rfl) fun h => ?_
  refine decoded_ite h (fun hop h => encode_of_bare h hop rfl rfl) fun h => ?_
  cases h

end

/-! ## Any instruction -/

/-- No event code is the first preamble byte (R102). -/
theorem decode_encode_event {i : Instr} (hevent : i.isEvent = true) (rest : List Byte) :
    decode (encode i ++ rest) = decodeEvent (encode i ++ rest) := by
  cases i with
  | reset | openChannel | closeChannel | setReplyGranted | crcInit | crcUpdate | crcValue | fbNew | fbAppendU8
  | fbAppendU16 | fbAppendU32 | fbAppendRaw | sendMessage | sendRequest | queueMessage | rxByte | frameDeadlineFire
  | replyTimeoutFire => rfl
  | frameStatus | frameAck | frameNack | frameRequest | frameDomain => cases hevent

/-- Decoding inverts encoding. -/
theorem decode_encode {i : Instr} (h : i.wellFormed = true) (rest : List Byte) :
    decode (encode i ++ rest) = .ok (i, rest) := by
  cases hevent : i.isEvent with
  | true => rw [decode_encode_event hevent, decodeEvent_encode hevent h]
  | false =>
    obtain ⟨t, tid, payload, crc, hfits, rfl⟩ := eq_frameInstr_of_wellFormed hevent h
    obtain ⟨-, hencode, -⟩ := frameInstr_spec t tid payload crc
    rw [← decodeFrame_encode hevent h rest, hencode, frameBytes_append]
    rfl

theorem decodeInput_inputWordOf {i : Instr} (h : i.wellFormed = true) : decodeInput (inputWordOf i) = .ok i := by
  unfold inputWordOf
  cases hevent : i.isEvent with
  | true =>
    have hdecode := decodeEvent_encode hevent h []
    rw [List.append_nil] at hdecode
    rw [if_pos rfl, decodeInput, hdecode]
    rfl
  | false =>
    have hdecode := decodeFrame_encode hevent h []
    rw [List.append_nil] at hdecode
    rw [if_neg (by decide), decodeInput, hdecode]
    rfl

/-- Encoding inverts decoding. -/
theorem encode_of_decode {bytes rest : List Byte} {i : Instr} (h : decode bytes = .ok (i, rest)) :
    i.wellFormed = true ∧ bytes = encode i ++ rest := by
  unfold decode at h
  split at h
  next => cases h
  next op body =>
    split at h
    next =>
      obtain ⟨-, hwf, hbytes⟩ := encode_of_decodeFrame h
      exact ⟨hwf, hbytes⟩
    next => exact encode_of_decodeEvent h

/-! ## The receive stream -/

/-- The first instruction of bytes on the receive stream is a frame row or an RX_BYTE, and is executed as the run of the bytes
that it was read from (R101). -/
theorem decodeWire_spec {bytes : List Byte} (hbytes : bytes ≠ []) :
    ∃ i part left, decodeWire bytes = .ok (i, left) ∧ bytes = part ++ left ∧ part ≠ [] ∧
      ∀ s, exec i s = .next (rxBytes part s) := by
  unfold decodeWire
  cases hdecode : decodeFrame bytes with
  | ok r =>
    obtain ⟨i, left⟩ := r
    obtain ⟨t, tid, payload, crc, -, hread, rfl⟩ := decodeFrame_eq_ok hdecode
    obtain ⟨hframe, hencode, -⟩ := frameInstr_spec t tid payload crc
    refine ⟨_, _, left, rfl, hread, by simp [frameBytes, headerBytes], fun s => ?_⟩
    rw [exec_of_isEvent_false hframe, hencode]
  | error e =>
    cases bytes with
    | nil => exact absurd rfl hbytes
    | cons b left => exact ⟨.rxByte b, [b], left, rfl, rfl, List.cons_ne_nil b [], exec_rxByte b⟩

end Sys2Proof.Machine

namespace Sys2Proof.Proofs

open Sys2Proof Sys2Proof.Machine

/-- Settles O54. -/
theorem decodeInvertsEncode : Obligations.DecodeInvertsEncode :=
  fun _ rest h => ⟨decode_encode h rest, decodeInput_inputWordOf h⟩

/-- Settles O55. -/
theorem encodeInvertsDecode : Obligations.EncodeInvertsDecode := fun _ _ _ => encode_of_decode

/-- Settles O56. -/
theorem reservedEventWordsAreRejected : Obligations.ReservedEventWordsAreRejected := by
  refine ⟨fun op rest hop => ?opcode, fun a rest ha => ?gate, fun t f l h rest hf => ?builder,
    fun l h rest hcount => ?raw⟩
  case opcode =>
    simp only [List.mem_cons, List.not_mem_nil, or_false, not_or] at hop
    simp only [decodeEvent, hop, if_false]
  case gate =>
    change decodeE1 decodeSetReplyGranted (a :: rest) = _
    simp only [decodeE1, decodeSetReplyGranted, bitOperand_reserved ha]
  case builder =>
    change decodeEN (t :: f :: l :: h :: rest) = _
    simp only [decodeEN, bitOperand_reserved hf]
  case raw => exact if_pos hcount

/-- Settles O57. -/
theorem writtenOutWordsDecode : Obligations.WrittenOutWordsDecode :=
  ⟨rfl, rfl, rfl, rfl, rfl, rfl, rfl, rfl⟩

/-- Settles O11: the bytes are those of `frameBytes`, whose two fields are taken apart low byte first. -/
theorem serializedFieldsReadBack : Obligations.SerializedFieldsReadBack := by
  intro t i s hfits
  rw [serialize_eq t i s hfits]
  have hheader : (headerBytes t i (BitVec.ofNat 16 s.length)).length = 6 := rfl
  have hbody : (headerBytes t i (BitVec.ofNat 16 s.length) ++ s).length = 6 + s.length := by simp
  refine ⟨lowByte (BitVec.ofNat 16 s.length), highByte (BitVec.ofNat 16 s.length), lowByte _, highByte _, rfl, ?_, ?_,
    List.drop_left' hbody, ?_⟩
  · rw [u16Of_low_high, length_field_toNat s hfits]
  · rw [frameBytes, List.append_assoc, List.drop_left' hheader, List.take_left]
  · rw [u16Of_low_high, frameBytes, List.take_left' hbody]

/-- Settles O59. -/
theorem wireBytesAlwaysReachTheParser : Obligations.WireBytesAlwaysReachTheParser := by
  intro s bytes rest hinputs hbytes
  obtain ⟨i, part, left, hdecode, hread, hpart, hexec⟩ := decodeWire_spec hbytes
  refine ⟨part, left, _, hread, hpart, ?_, runsTo_rxBytes part _⟩
  rw [step_of_decodeNext hinputs hdecode, hexec]

end Sys2Proof.Proofs
end
